-- ==== Sys2Proof/Word.lean ====
section
/-! DEFINITION. The word types of the LC: codes, command words, reading buses and reading vectors. -/

namespace Sys2Proof

/-- An 8-bit value: a contrast pattern (R8) or a `pos8` position code (R9, R76). -/
abbrev Byte := BitVec 8

/-- A command word of format CMD16 (R70). -/
abbrev CmdWord := BitVec 16

/-- A reading bus of 8 slices of `W` bits (R54), held in its greatest width, `8 * 32` bits. Only the low
`8 * W` bits exist in an LC of reading width `W` (log 4). -/
abbrev Bus := BitVec 256

/-- A reading vector: exactly 8 codes, channel 0 first (R75, I3 of 93_implementation_defined.md). Codes are
mathematical integers, as R13 has it. -/
abbrev Readings := Fin 8 → Nat

end Sys2Proof
end

