-- ==== Sys2Proof/Syntax.lean ====
section
/-! DEFINITION. The commands of the LC, one constructor per row of spec/opcode_table.json. -/

namespace Sys2Proof

/-- The five commands (R71, R81). LUT and TRKP carry the pattern of the PAT field. BIN, TRKV and TRKA ignore
PAT (R73), so they carry nothing; a reading vector travels on `cmd_rd` or `acq_rd`, not in the word (R74). -/
inductive Instr where
  /-- BIN: binarize the captured vector (R111). -/
  | bin
  /-- LUT: look a pattern up (R127). -/
  | lut (p : Byte)
  /-- TRKP: track a given pattern (R143). -/
  | trkp (p : Byte)
  /-- TRKV: track a given reading vector (R144). -/
  | trkv
  /-- TRKA: acquire a vector, then track it (R145). -/
  | trka
  deriving DecidableEq, Repr

end Sys2Proof
end

