-- ==== Sys2Proof/Config.lean ====
section
/-! DEFINITION. What an implementation of the LC fixes (R11) and the values the spec leaves free. -/

namespace Sys2Proof.Config

/-- The least reading width `W` (R7). -/
def minWidth : Nat := 1

/-- The greatest reading width `W` (R7). -/
def maxWidth : Nat := 32

/-- The spec's default reading width (R7, R11). -/
def defaultWidth : Nat := 12

/-- `LAT_EXEC - 1`. The spec leaves `LAT_EXEC` open (R10, D21), so this constant has no body. Log 5. -/
opaque extraLatency : Nat

/-- `LAT_EXEC`, an integer at least 1 (R10). Log 5. -/
def latExec : Nat := extraLatency + 1

/-- The unspecified value CNT holds after a reset edge (R201, I12). The argument is the number of the reset
edge. Log 7. -/
opaque freeCnt : Nat → Nat

/-- The unspecified value CAP_WORD holds after a reset edge (R201, I12). Log 7. -/
opaque freeCapWord : Nat → BitVec 16

/-- The unspecified value CAP_RD holds after a reset edge (R201, I12), before it is cut to `8 * W` bits. Log 7. -/
opaque freeCapRd : Nat → BitVec 256

/-- The unspecified value CAP_ERR holds after a reset edge (R201, I12). Log 7. -/
opaque freeCapErr : Nat → Bool

end Sys2Proof.Config
end

