-- ==== Sys2Proof/WellFormed.lean ====
section
/-! DEFINITION. Well-formedness: the checks a value must pass before it reaches the LC. -/

namespace Sys2Proof.WellFormed

/-- `W` lies in 1..32 (R7). -/
def widthOk (w : Nat) : Bool := decide (Config.minWidth ≤ w) && decide (w ≤ Config.maxWidth)

/-- `LAT_EXEC` is at least 1 (R10). -/
def latencyOk (n : Nat) : Bool := decide (1 ≤ n)

/-- A pattern operand lies in 0..255 (R83). -/
def patternOk (p : Nat) : Bool := decide (p < 2 ^ 8)

/-- A command word has 16 bits (R70). -/
def wordOk (w : Nat) : Bool := decide (w < 2 ^ 16)

/-- A reading code lies in `0..2^W - 1` (R75, R83). -/
def codeOk (w c : Nat) : Bool := decide (c < 2 ^ w)

/-- A vector has exactly 8 readings (R83, R173). -/
def countOk (codes : List Nat) : Bool := decide (codes.length = 8)

/-- A vector the assembler and the ports take: 8 codes, each of `W` bits (R83, R173). -/
def vectorOk (w : Nat) (codes : List Nat) : Bool := countOk codes && codes.all (codeOk w)

/-- A bus value has `8 * W` bits (R33). -/
def busOk (w : Nat) (b : Bus) : Bool := decide (b.toNat < 2 ^ (8 * w))

/-- Well-formed commands: every term of `Instr` is one, because the only operand of a command word is a PAT of
8 bits and any of its 256 values is a pattern (R73). -/
def instrOk : Instr → Bool
  | .bin => true
  | .lut p => patternOk p.toNat
  | .trkp p => patternOk p.toNat
  | .trkv => true
  | .trka => true

end Sys2Proof.WellFormed
end

