-- ==== Sys2Proof/Decode.lean ====
section
/-! DEFINITION. The decoder of command words, total over all 65,536 of them (R80, R82), and the encoder. -/

namespace Sys2Proof

/-- Why a command word is illegal (R80). -/
inductive IllegalWord where
  /-- RSVD is not 0 (R72). -/
  | reservedBits (rsvd : BitVec 5)
  /-- OP is 5, 6 or 7 (R71). -/
  | reservedOp (op : BitVec 3)
  deriving DecidableEq, Repr

/-- What a command word is: exactly one legal command, or illegal (R80). -/
inductive Decoded where
  /-- A legal word. -/
  | command (i : Instr)
  /-- An illegal word; it completes with status ILLEGAL (R171). -/
  | illegal (why : IllegalWord)
  deriving DecidableEq, Repr

/-- RSVD, bits 15:11 (R70). -/
def fieldRsvd (w : CmdWord) : BitVec 5 := w.extractLsb' 11 5

/-- OP, bits 10:8 (R70). -/
def fieldOp (w : CmdWord) : BitVec 3 := w.extractLsb' 8 3

/-- PAT, bits 7:0 (R70). -/
def fieldPat (w : CmdWord) : Byte := w.extractLsb' 0 8

/-- The command that OP selects (R71, R81), its pattern operand taken from PAT (R73). -/
def selectOp (op : BitVec 3) (pat : Byte) : Decoded :=
  match op.toNat with
  | 0 => .command .bin
  | 1 => .command (.lut pat)
  | 2 => .command (.trkp pat)
  | 3 => .command .trkv
  | 4 => .command .trka
  | _ => .illegal (.reservedOp op)

/-- The decoder (R80): a word with RSVD nonzero is illegal whatever its OP (R72). -/
def decode (w : CmdWord) : Decoded :=
  if fieldRsvd w = 0 then selectOp (fieldOp w) (fieldPat w) else .illegal (.reservedBits (fieldRsvd w))

/-- `word = (RSVD << 11) | (OP << 8) | PAT` with RSVD = 0 (R70, R72). -/
def packWord (op : BitVec 3) (pat : Byte) : CmdWord :=
  (op.setWidth 16 <<< 8) ||| pat.setWidth 16

/-- The encoder (R81, R83): an ignored PAT is written 0x00, as the assembler writes it. Log 14. -/
def encode : Instr → CmdWord
  | .bin => packWord 0 0
  | .lut p => packWord 1 p
  | .trkp p => packWord 2 p
  | .trkv => packWord 3 0
  | .trka => packWord 4 0

/-- The word of a table row: its `nbits` bits as one 16-bit command word, whole (R55 gives the LC no byte
order), the bits above `nbits` zero. -/
def tableWord (nbits w : Nat) : CmdWord := BitVec.ofNat 16 (w % 2 ^ nbits)

/-- The instruction the decoder reads from a table row's bits; none where the word is illegal or the row is not
one 16-bit word (R82: every command is one 16-bit word). -/
def decodeTableWord (nbits w : Nat) : Option Instr :=
  if nbits ≤ 16 then
    match decode (tableWord nbits w) with
    | .command i => some i
    | .illegal _ => none
  else none

end Sys2Proof
end

