-- ==== Sys2Proof/Machine/State.lean ====
section
/-! DEFINITION. The state of the LC (R22), its input ports (R33), the reasons a step can stop, and reset. -/

namespace Sys2Proof.Machine

/-- The sequencer's phase, register SEQ (R27). Log 9. -/
inductive Seq where
  /-- No command is in flight. -/
  | idle
  /-- A command is being completed. -/
  | exec
  /-- A TRKA waits for the acquisition adapter. -/
  | waitAcq
  deriving DecidableEq, Repr

/-- The parameters the model takes besides the adapter's answers (R11). No step changes them. -/
structure Params where
  /-- `W`, bits per reading code (R7). Log 4. -/
  width : Nat
  /-- `LAT_EXEC`, edges from acceptance, or from the acquisition answer, to completion (R10). Log 5. -/
  latExec : Nat
  deriving DecidableEq, Repr

/-- The parameters lie in the ranges of R11. -/
def Params.wf (c : Params) : Bool := WellFormed.widthOk c.width && WellFormed.latencyOk c.latExec

/-- The values on the input ports in one cycle (R33); the rising edge that ends the cycle samples them. -/
structure Pins where
  rst : Bool
  cmdValid : Bool
  cmdWord : CmdWord
  cmdRd : Bus
  acqDone : Bool
  acqErr : Bool
  acqRd : Bus
  deriving DecidableEq, Repr

/-- A cycle in which no agent does anything: no reset, no command offered, no answer. Log 2. -/
def Pins.quiet : Pins :=
  { rst := false, cmdValid := false, cmdWord := 0, cmdRd := 0, acqDone := false, acqErr := false, acqRd := 0 }

/-- A command on offer: `cmd_word` and `cmd_rd` with `cmd_valid = 1` (R34). -/
structure Offer where
  word : CmdWord
  rd : Bus
  deriving DecidableEq, Repr

/-- The state: every register of R22 under its own name, the parameters, and what the agents outside drive. -/
structure State where
  /-- LAST_POS, the one-word latch (R23). -/
  lastPos : Byte
  /-- SEQ (R27). -/
  seq : Seq
  /-- CNT (R27). Log 10. -/
  cnt : Nat
  /-- CAP_WORD (R28). -/
  capWord : CmdWord
  /-- CAP_RD (R28). -/
  capRd : Bus
  /-- CAP_ERR (R28). -/
  capErr : Bool
  /-- RSP_STATUS (R29). -/
  rspStatus : BitVec 2
  /-- RSP_PAT (R29). -/
  rspPat : Byte
  /-- RSP_POS (R29). -/
  rspPos : Byte
  /-- RSP_VALID (R29). -/
  rspValid : Bool
  /-- The model's own: the parameters (R11). -/
  params : Params
  /-- The model's own: the port values the coming edges sample, the next edge's first (R33). Log 2. -/
  inputs : List Pins
  /-- The model's own: the command offered at the last edge and not accepted (R34, R212). Log 12. -/
  standing : Option Offer
  /-- The model's own: how many reset edges have drawn free values (R201, I12). Log 8. -/
  freeCount : Nat
  deriving DecidableEq, Repr

/-- Why the machine stops with a fault. -/
inductive Fault where
  /-- Raised by an edge in SEQ = EXEC with CNT = 0, for which R27 gives no transition. Safe: no run from reset
  reaches it, and the spec gives it no effect. Log 11. -/
  | execWithoutCount
  deriving DecidableEq, Repr

/-- Why the machine refuses an edge. -/
inductive Refusal where
  /-- Raised by an arm of `exec` whose instruction has no meaning yet. Safe: nothing is claimed of it. -/
  | notModelled (mnemonic : String)
  /-- Raised by `edge` when the host changes `cmd_word` or `cmd_rd` of a command that it has offered, that has not
  been accepted, and that it still offers: R212 says the model has no move for it. Safe: nothing is claimed of
  such a host. Log 12. -/
  | operandsChanged
  deriving DecidableEq, Repr

/-- The machine right after reset (R22, R201): the parameters at their defaults, nothing offered. CNT, CAP_WORD,
CAP_RD and CAP_ERR, to which the spec gives no reset value, hold 0 (DESIGN CHOICE, log 6). -/
def State.reset : State :=
  { lastPos := 0x00
    seq := .idle
    cnt := 0
    capWord := 0
    capRd := 0
    capErr := false
    rspStatus := 0b00
    rspPat := 0x00
    rspPos := 0x80
    rspValid := false
    params := { width := Config.defaultWidth, latExec := Config.latExec }
    inputs := []
    standing := none
    freeCount := 0 }

end Sys2Proof.Machine
end

