-- ==== Sys2Proof/Machine/Operands.lean ====
section
/-! DEFINITION. Operand forms: the slices of a reading bus (R54), reading vectors (R75) and position codes (R76). -/

namespace Sys2Proof.Machine

/-- A bus value as a port or register of `8 * W` bits carries it (R33). -/
def busClip (w : Nat) (b : Bus) : Bus := BitVec.ofNat 256 (b.toNat % 2 ^ (8 * w))

/-- Channel `i` of a bus, bits `[W*(8-i)-1 : W*(7-i)]` (R54). -/
def channelCode (w : Nat) (b : Bus) (i : Fin 8) : Nat := b.toNat / 2 ^ (w * (7 - i.val)) % 2 ^ w

/-- The reading vector a bus carries (R54, R75). -/
def readings (w : Nat) (b : Bus) : Readings := fun i => channelCode w b i

/-- `rd[0] ++ rd[1] ++ ... ++ rd[7]`, channel 0 the most significant slice (R54). -/
def busOf (w : Nat) (rd : Readings) : Bus :=
  BitVec.ofNat 256 ((List.finRange 8).foldl (fun b i => b * 2 ^ w + rd i % 2 ^ w) 0)

/-- `sext_8` (R13). -/
def sext8 (c : Byte) : Int := if c.toNat < 128 then (c.toNat : Int) else (c.toNat : Int) - 256

/-- UNDEF, the undefined sentinel (R77). -/
def undef : Byte := 0x80

/-- The position a `pos8` code stands for, `sext_8(c) / 8` (R23, R76); UNDEF stands for none (R77, I1 of
93_implementation_defined.md). -/
def position (c : Byte) : Option ℚ := if c = undef then none else some ((sext8 c : ℚ) / 8)

/-- The RSP_POS fill of a response that carries no position (R79). -/
def noPosition : Byte := 0x80

/-- The RSP_PAT fill of a response that carries no pattern (R79). -/
def noPattern : Byte := 0x00

/-- The bits of a pattern reversed, `rev(p)[j] = p[7 - j]` (R106, R124). -/
def rev (p : Byte) : Byte := BitVec.ofBoolListBE ((List.finRange 8).map fun i => p.getLsbD i.val)

end Sys2Proof.Machine
end

