-- ==== Sys2Proof/Machine/Binarizer.lean ====
section
/-! DEFINITION. The binarizer function (R100), the same in `W + 1`-bit arithmetic (R108), and the source's
rational threshold (R101). -/

namespace Sys2Proof.Machine

/-- `min(rd[0], ..., rd[7])` (R100). -/
def lowest (rd : Readings) : Nat := (List.finRange 8).foldl (fun m i => min m (rd i)) (rd 0)

/-- `max(rd[0], ..., rd[7])` (R100). -/
def highest (rd : Readings) : Nat := (List.finRange 8).foldl (fun m i => max m (rd i)) (rd 0)

/-- `s = mn + mx` (R100). -/
def extremesSum (rd : Readings) : Nat := lowest rd + highest rd

/-- The bit of channel `i`: `2 * rd[i] >= s`, a tie is dark (R100, R102). -/
def isDark (rd : Readings) (i : Fin 8) : Bool := decide (extremesSum rd ≤ 2 * rd i)

/-- Left-shift and append each channel's bit in channel order: channel `i` lands on bit `7 - i` (R100, R103). -/
def packPattern (dark : Fin 8 → Bool) : Byte :=
  (List.finRange 8).foldl (fun p i => (p <<< 1) ||| (if dark i then 1 else 0)) 0

/-- `Binarize` (R100). -/
def binarize (rd : Readings) : Byte := packPattern (isDark rd)

/-- The bit of channel `i` computed in `W + 1`-bit arithmetic, the width R108 says suffices. -/
def isDarkAtWidth (w : Nat) (rd : Readings) (i : Fin 8) : Bool :=
  let mn := BitVec.ofNat (w + 1) (lowest rd)
  let mx := BitVec.ofNat (w + 1) (highest rd)
  (mn + mx).ule (BitVec.ofNat (w + 1) (rd i) <<< 1)

/-- `Binarize` computed in `W + 1`-bit arithmetic (R108). -/
def binarizeAtWidth (w : Nat) (rd : Readings) : Byte := packPattern (isDarkAtWidth w rd)

/-- The least of 8 rational readings. -/
def lowestQ (r : Fin 8 → ℚ) : ℚ := (List.finRange 8).foldl (fun m i => min m (r i)) (r 0)

/-- The greatest of 8 rational readings. -/
def highestQ (r : Fin 8 → ℚ) : ℚ := (List.finRange 8).foldl (fun m i => max m (r i)) (r 0)

/-- The source's `threshold = min_val + (max_val - min_val) / 2` (R100, R101). -/
def thresholdQ (r : Fin 8 → ℚ) : ℚ := lowestQ r + (highestQ r - lowestQ r) / 2

/-- The source's algorithm on readings: bit 1 if the reading is not less than the threshold (R100, R101). -/
def binarizeQ (r : Fin 8 → ℚ) : Byte := packPattern fun i => !decide (r i < thresholdQ r)

end Sys2Proof.Machine
end

