-- ==== Sys2Proof/Machine/Flags.lean ====
section
/-! DEFINITION. Status codes (R78) and the DEFINED predicate (R30): the LC has no flag register. -/

namespace Sys2Proof.Machine

/-- The status a command completes with, exactly one of three (R170). -/
inductive Status where
  | ok
  | illegal
  | transport
  deriving DecidableEq, Repr

/-- The code on `rsp_status` (R78); 0b11 is never produced. -/
def statusCode : Status → BitVec 2
  | .ok => 0b00
  | .illegal => 0b01
  | .transport => 0b10

/-- `DEFINED(pos) = (pos != 0x80)` (R30). -/
def isDefined (pos : Byte) : Bool := decide (pos ≠ undef)

end Sys2Proof.Machine
end

