-- ==== Sys2Proof/Machine/Rom.lean ====
section
/-! DEFINITION. The lookup ROM (R32, R120, R121) and the lookup function (R123). -/

namespace Sys2Proof.Machine

/-- The 23 defined entries, in the source's order: pattern and `pos8` code (R120). -/
def romDefined : List (Byte × Byte) :=
  [(0x18, 0x00), (0x10, 0x02), (0x38, 0x02), (0x08, 0xFE), (0x1C, 0xFE), (0x30, 0x03), (0x0C, 0xFD), (0x20, 0x04)]
  ++ [(0x70, 0x04), (0x04, 0xFC), (0x0E, 0xFC), (0x60, 0x05), (0xE0, 0x05), (0x06, 0xFB), (0x07, 0xFB), (0x40, 0x06)]
  ++ [(0xF0, 0x06), (0x02, 0xFA), (0x0F, 0xFA), (0xC0, 0x07), (0x03, 0xF9), (0x80, 0x08), (0x01, 0xF8)]

/-- `RomRead(p)`: entry `p` of the ROM; each of the other 233 entries holds UNDEF (R51, R121). -/
def romRead (p : Byte) : Byte := (romDefined.lookup p).getD undef

/-- `Lookup(p) = RomRead(p)`: exact match, no other input (R122, R123). -/
def lookupPattern (p : Byte) : Byte := romRead p

/-- The codes LAST_POS may hold after reset: 0 and 2 to 8 eighths of either sign (R24, R126). -/
def latchCodes : List Byte :=
  [0x00, 0x02, 0x03, 0x04, 0x05, 0x06, 0x07, 0x08, 0xFE, 0xFD, 0xFC, 0xFB, 0xFA, 0xF9, 0xF8]

end Sys2Proof.Machine
end

