-- ==== Sys2Proof/Machine/Ops.lean ====
section
/-! DEFINITION. The shared operations: the sampled ports, one update per register transfer of R27 to R29, the
edges of the sequencer, the resolution of a pattern, and the error completions. -/

namespace Sys2Proof.Machine

/-- The input-port values the next rising edge samples, each bus at its width of `8 * W` bits (R33). After the
last listed cycle no agent does anything. Log 2. -/
def State.pins (s : State) : Pins :=
  let p := s.inputs.headD Pins.quiet
  { p with cmdRd := busClip s.params.width p.cmdRd, acqRd := busClip s.params.width p.acqRd }

/-- `cmd_ready = (SEQ = IDLE) and (rst = 0)` (R35). -/
def State.cmdReady (s : State) : Bool := decide (s.seq = .idle) && !s.pins.rst

/-- The next edge accepts the offered command: `rst = 0`, `cmd_valid = 1`, `cmd_ready = 1` (R34). -/
def State.accepting (s : State) : Bool := s.pins.cmdValid && s.cmdReady

/-- The vector in CAP_RD (R28, R54). -/
def State.vector (s : State) : Readings := readings s.params.width s.capRd

/-! Register transfers. -/

/-- `LAST <- v`, all 8 bits at once (R23). -/
def State.writeLast (s : State) (v : Byte) : State := { s with lastPos := v }

/-- `Respond(st, pat, pos)` (R29). -/
def State.respond (s : State) (st : Status) (pat pos : Byte) : State :=
  { s with rspStatus := statusCode st, rspPat := pat, rspPos := pos, rspValid := true }

/-- RSP_VALID <- 0, at every edge that is no completion (R29). -/
def State.dropStrobe (s : State) : State := { s with rspValid := false }

/-- SEQ <- IDLE (R27). -/
def State.goIdle (s : State) : State := { s with seq := .idle }

/-- SEQ <- WAIT_ACQ, which raises `acq_req` (R27, R37). -/
def State.goWait (s : State) : State := { s with seq := .waitAcq }

/-- SEQ <- EXEC, CNT <- LAT_EXEC (R27). -/
def State.startExec (s : State) : State := { s with seq := .exec, cnt := s.params.latExec }

/-- CNT <- n (R27). -/
def State.setCount (s : State) (n : Nat) : State := { s with cnt := n }

/-- CAP_WORD <- `cmd_word`, CAP_RD <- `cmd_rd`, at acceptance (R28). -/
def State.captureCommand (s : State) : State := { s with capWord := s.pins.cmdWord, capRd := s.pins.cmdRd }

/-- CAP_ERR <- `acq_err` and, when `acq_err = 0`, CAP_RD <- `acq_rd` (R28, R145). -/
def State.captureAnswer (s : State) : State :=
  { s with capErr := s.pins.acqErr, capRd := if s.pins.acqErr then s.capRd else s.pins.acqRd }

/-! Resolution and completions. -/

/-- The value `Resolve(p)` returns: the lookup, or the latch where the lookup is UNDEF (R140). -/
def resolvedCode (last p : Byte) : Byte := if lookupPattern p = undef then last else lookupPattern p

/-- `Resolve(p)`: the value it returns, and the state with that value in the latch, written also when it was the
latch's own (R140). -/
def State.resolve (s : State) (p : Byte) : Byte × State :=
  let v := resolvedCode s.lastPos p
  (v, s.writeLast v)

/-- The completion of a tracking command on pattern `p`: resolve, then respond, at the one edge (R141, R143). -/
def State.trackPattern (s : State) (p : Byte) : State :=
  let r := s.resolve p
  r.2.respond .ok p r.1

/-- The completion with an error status: the LC's whole error entry. It saves nothing, changes no mode and has no
vector; the response carries the fill values (R79, R171, R172, R176). -/
def State.respondError (s : State) (st : Status) : State := s.respond st noPattern noPosition

/-! The edges of the sequencer (R27). -/

/-- The acceptance edge: WAIT_ACQ for a legal TRKA, else EXEC (R27, R28). -/
def State.acceptEdge (s : State) (acquires : Bool) : State :=
  let c := s.captureCommand.dropStrobe
  if acquires then c.goWait else c.startExec

/-- An edge in WAIT_ACQ: the answer is captured if `acq_done = 1`; without one the LC goes on waiting, for ever if
need be (R27, R28, R209). -/
def State.awaitEdge (s : State) : State :=
  if s.pins.acqDone then s.captureAnswer.dropStrobe.startExec else s.dropStrobe

/-- An edge in EXEC with CNT > 1 (R27). -/
def State.countEdge (s : State) : State := (s.setCount (s.cnt - 1)).dropStrobe

/-- What a rising edge with `rst = 0` does for the command offered or in flight: its acceptance in IDLE, the wait for
its answer in WAIT_ACQ, the count in EXEC, and its family rule `rule` at the completion edge (R27). -/
def serve (acquires : Bool) (rule : State → State) (s : State) : Host.Outcome State Fault Refusal :=
  match s.seq with
  | .idle => .next (s.acceptEdge acquires)
  | .waitAcq => .next s.awaitEdge
  | .exec =>
    match s.cnt with
    | 0 => .fault .execWithoutCount
    | 1 => .next (rule s).goIdle
    | _ => .next s.countEdge

/-- The completion rule of an illegal word (R171). -/
def illegalRule (s : State) : State := s.respondError .illegal

/-- An illegal word: it goes to EXEC, never to WAIT_ACQ, and completes with status ILLEGAL (R171, R175). -/
def serveIllegal (s : State) : Host.Outcome State Fault Refusal := serve false illegalRule s

/-- An edge in IDLE at which no command is offered: only RSP_VALID falls (R29, R185). -/
def State.idleEdge (s : State) : State := s.dropStrobe

/-- A reset edge (R200, R201): the registers of R22 take their reset values, a command in flight is abandoned (R202);
CNT, CAP_WORD, CAP_RD and CAP_ERR hold unspecified values, here free ones (I12, log 7). -/
def State.resetEdge (s : State) : State :=
  { s with
    lastPos := 0x00
    seq := .idle
    cnt := Config.freeCnt s.freeCount
    capWord := Config.freeCapWord s.freeCount
    capRd := busClip s.params.width (Config.freeCapRd s.freeCount)
    capErr := Config.freeCapErr s.freeCount
    rspStatus := 0b00
    rspPat := 0x00
    rspPos := 0x80
    rspValid := false
    freeCount := s.freeCount + 1 }

/-! The host's side of an edge. -/

/-- The word of the command an edge serves: the offered one in IDLE, else the captured one (R27, R34). -/
def State.currentWord (s : State) : Option CmdWord :=
  match s.seq with
  | .idle => if s.pins.cmdValid then some s.pins.cmdWord else none
  | .exec => some s.capWord
  | .waitAcq => some s.capWord

/-- The host has changed the operands of a command that stands offered: a duty it breaks (R34, R207, R212). Log 12. -/
def State.offerChanged (s : State) : Bool :=
  match s.standing with
  | none => false
  | some o => s.pins.cmdValid && !(decide (s.pins.cmdWord = o.word) && decide (s.pins.cmdRd = o.rd))

/-- The command that stands offered after the next edge: one offered while `cmd_ready = 0` (R34). A reset edge lets
the host offer anew. Logs 12 and 13. -/
def State.standingAfter (s : State) : Option Offer :=
  if s.pins.cmdValid && !s.pins.rst && !s.accepting then some { word := s.pins.cmdWord, rd := s.pins.cmdRd } else none

/-- After an edge from state `s` the ports carry the next listed values. -/
def State.tickFrom (t s : State) : State := { t with inputs := s.inputs.tail, standing := s.standingAfter }

end Sys2Proof.Machine
end

