-- ==== Sys2Proof/Machine/Sense.lean ====
section
/-! DEFINITION. The meanings of BIN and LUT, the commands that leave the latch alone. -/

namespace Sys2Proof.Machine

/-- BIN's completion: the pattern of the captured vector, no position (R111). -/
def binRule (s : State) : State := s.respond .ok (binarize s.vector) noPosition

/-- BIN (R111). -/
def execBin (s : State) : Host.Outcome State Fault Refusal := serve false binRule s

/-- LUT's completion: the pattern and its lookup, which may be UNDEF (R127). -/
def lutRule (p : Byte) (s : State) : State := s.respond .ok p (lookupPattern p)

/-- LUT (R127). -/
def execLut (p : Byte) (s : State) : Host.Outcome State Fault Refusal := serve false (lutRule p) s

end Sys2Proof.Machine
end

