-- ==== Sys2Proof/Machine/Track.lean ====
section
/-! DEFINITION. The meanings of the tracking commands TRKP, TRKV and TRKA. -/

namespace Sys2Proof.Machine

/-- TRKP's completion: track the pattern operand (R143). -/
def trkpRule (p : Byte) (s : State) : State := s.trackPattern p

/-- TRKP (R143). -/
def execTrkp (p : Byte) (s : State) : Host.Outcome State Fault Refusal := serve false (trkpRule p) s

/-- TRKV's completion: binarize the captured vector, then track (R144). -/
def trkvRule (s : State) : State := s.trackPattern (binarize s.vector)

/-- TRKV (R144). -/
def execTrkv (s : State) : Host.Outcome State Fault Refusal := serve false trkvRule s

/-- TRKA's completion: TRANSPORT, the latch untouched, if the answer was an error (R146); else as TRKV on the
acquired vector (R145). -/
def trkaRule (s : State) : State :=
  if s.capErr then s.respondError .transport else s.trackPattern (binarize s.vector)

/-- TRKA: requests an acquisition at acceptance and waits for its answer (R145). -/
def execTrka (s : State) : Host.Outcome State Fault Refusal := serve true trkaRule s

end Sys2Proof.Machine
end

