-- ==== Sys2Proof/Machine/Dispatch.lean ====
section
/-! DEFINITION. The dispatch from commands to their meanings: one rising edge with rst = 0 for command i. -/

namespace Sys2Proof.Machine

def exec (i : Instr) (s : State) : Host.Outcome State Fault Refusal :=
  match i with
  | .bin => Sys2Proof.Machine.execBin s
  | .lut p => Sys2Proof.Machine.execLut p s
  | .trkp p => Sys2Proof.Machine.execTrkp p s
  | .trkv => Sys2Proof.Machine.execTrkv s
  | .trka => Sys2Proof.Machine.execTrka s

end Sys2Proof.Machine
end

