-- ==== Sys2Proof/Machine/Edge.lean ====
section
/-! DEFINITION. One rising edge of clk on the registers of the LC. -/

namespace Sys2Proof.Machine

/-- An edge that serves word `w`: its command if it is legal, else an illegal completion (R80, R171). -/
def serveWord (w : CmdWord) (s : State) : Host.Outcome State Fault Refusal :=
  match decode w with
  | .command i => exec i s
  | .illegal _ => serveIllegal s

/-- One rising edge: reset above everything (R175, R200); then the command offered or in flight (R27); in IDLE with
nothing offered the LC holds its state (R185). -/
def edge (s : State) : Host.Outcome State Fault Refusal :=
  if s.pins.rst then .next s.resetEdge
  else if s.offerChanged then .refused .operandsChanged
  else
    match s.currentWord with
    | none => .next s.idleEdge
    | some w => serveWord w s

/-- A next state takes up the port values of the cycle that begins (R33). -/
def afterEdge (s : State) : Host.Outcome State Fault Refusal → Host.Outcome State Fault Refusal
  | .next t => .next (t.tickFrom s)
  | .fault r => .fault r
  | .refused r => .refused r

/-- The ports of the cycle that the next edge ends, with `rst = 0`. -/
def lowerReset : List Pins → List Pins
  | [] => []
  | p :: ps => { p with rst := false } :: ps

/-- The state with word `w` captured and at the edge before its completion: SEQ = EXEC, CNT = 1, `rst = 0`, and no
breach of duty standing. -/
def State.withCaptured (s : State) (w : CmdWord) : State :=
  { s with seq := .exec, cnt := 1, capWord := w, inputs := lowerReset s.inputs, standing := none }

end Sys2Proof.Machine
end

