-- ==== Sys2Proof/Machine/Step.lean ====
section
/-! DEFINITION. The step: one rising edge of clk, after which the ports carry the next listed values. -/

namespace Sys2Proof.Machine

/-- One step is one rising edge of `clk` (R33). Log 1. -/
def step (s : State) : Host.Outcome State Fault Refusal := afterEdge s (edge s)

/-- The state whose very next step runs the table row's word: an LC fetches nothing (R21), so the word is placed where
a command in flight is held, with its completion due at the next edge. Log 3. -/
def State.withFetchWord (s : State) (nbits w : Nat) : State := s.withCaptured (tableWord nbits w)

end Sys2Proof.Machine
end

