-- ==== Sys2Proof/Machine/Assembler.lean ====
section
/-! DEFINITION. The assembler: the lines of R83, the pseudo-command TRACK (R84) and the line RESET (R85); and the
port cycles in which a host does what the lines say. -/

namespace Sys2Proof.Machine

/-- A line of a program as it is written, its operands not yet checked (R83 to R85). -/
inductive Line where
  | bin (rd : List Nat)
  | lut (p : Nat)
  | trkp (p : Nat)
  | trkv (rd : List Nat)
  | trka
  /-- `.cmd 0xHHHH`, any word. -/
  | cmd (word : Nat)
  /-- `.cmd 0xHHHH {r0,...,r7}`. -/
  | cmdWith (word : Nat) (rd : List Nat)
  /-- `TRACK` with no operand. -/
  | track
  /-- `TRACK {r0,...,r7}`. -/
  | trackVector (rd : List Nat)
  /-- `TRACK p`. -/
  | trackPattern (p : Nat)
  /-- `RESET`, which is not a command. -/
  | reset
  deriving DecidableEq, Repr

/-- What a line makes the host do. -/
inductive HostMove where
  /-- Offer this command. -/
  | offer (o : Offer)
  /-- Assert `rst` for at least one rising edge (R85). -/
  | assertReset
  deriving DecidableEq, Repr

/-- Why the assembler refuses a line (R83, R173). -/
inductive AsmError where
  /-- A pattern outside 0..255. -/
  | patternOutOfRange (p : Nat)
  /-- A command word outside 0..0xFFFF. -/
  | wordOutOfRange (w : Nat)
  /-- A vector of other than 8 readings. -/
  | wrongCount (n : Nat)
  /-- A reading outside `0..2^W - 1`. -/
  | readingOutOfRange
  /-- Text that is no line of R83 to R85. -/
  | notALine
  deriving DecidableEq, Repr

/-- What the assembler makes of a line. -/
inductive Assembled where
  | move (m : HostMove)
  /-- A line with nothing on it but a comment. -/
  | blank
  | error (e : AsmError)
  deriving DecidableEq, Repr

/-- The 8 codes of a list as a vector, channel 0 first. -/
def vectorOfList (codes : List Nat) : Readings := fun i => codes.getD i.val 0

/-- An operand vector on `cmd_rd`, `r0 ++ ... ++ r7` (R83). -/
def withVector (w : Nat) (codes : List Nat) (word : CmdWord) : Assembled :=
  if WellFormed.countOk codes then
    if codes.all (WellFormed.codeOk w) then .move (.offer { word := word, rd := busOf w (vectorOfList codes) })
    else .error .readingOutOfRange
  else .error (.wrongCount codes.length)

/-- A pattern operand (R83); the assembler drives 0 on `cmd_rd`. -/
def withPattern (p : Nat) (i : Byte → Instr) : Assembled :=
  if WellFormed.patternOk p then .move (.offer { word := encode (i (BitVec.ofNat 8 p)), rd := 0 })
  else .error (.patternOutOfRange p)

/-- The assembler on lines (R83 to R85), for an LC of reading width `w`. -/
def assemble (w : Nat) : Line → Assembled
  | .bin rd => withVector w rd (encode .bin)
  | .lut p => withPattern p .lut
  | .trkp p => withPattern p .trkp
  | .trkv rd => withVector w rd (encode .trkv)
  | .trka => .move (.offer { word := encode .trka, rd := 0 })
  | .cmd word =>
    if WellFormed.wordOk word then .move (.offer { word := BitVec.ofNat 16 word, rd := 0 })
    else .error (.wordOutOfRange word)
  | .cmdWith word rd =>
    if WellFormed.wordOk word then withVector w rd (BitVec.ofNat 16 word) else .error (.wordOutOfRange word)
  | .track => .move (.offer { word := encode .trka, rd := 0 })
  | .trackVector rd => withVector w rd (encode .trkv)
  | .trackPattern p => withPattern p .trkp
  | .reset => .move .assertReset

/-! The host doing what the lines say (R34, R85). -/

/-- The ports in a cycle of a move: the command on offer (R34), or `rst = 1` (R85). The adapter is quiet. -/
def HostMove.pins : HostMove → Pins
  | .offer o => { Pins.quiet with cmdValid := true, cmdWord := o.word, cmdRd := o.rd }
  | .assertReset => { Pins.quiet with rst := true }

/-- The cycles of a move, the same for `hold + 1` rising edges. RESET asserts `rst` for at least one edge (R85). A command
stays offered, its operands stable, until it is accepted (R34); `hold` is the host's count of the edges before that one, a number
the caller gives (DESIGN CHOICE, log 21). -/
def HostMove.cycles (hold : Nat) (m : HostMove) : List Pins := List.replicate (hold + 1) m.pins

/-- The cycles of a line for an LC of reading width `w`; none where the assembler refuses the line. -/
def lineCycles (w hold : Nat) (l : Line) : Option (List Pins) :=
  match assemble w l with
  | .move m => some (m.cycles hold)
  | .blank => some []
  | .error _ => none

/-- A line of a program with the host's timing for it: the idle cycles the host waits before the line, any number (R212), and
the `hold` of the line's move. The spec gives neither number; the caller does (DESIGN CHOICE, log 21). -/
structure TimedLine where
  wait : Nat
  line : Line
  hold : Nat
  deriving DecidableEq, Repr

/-- The cycles of a line with its timing: the wait, in which the host drives nothing, and then the line's own. -/
def timedCycles (w : Nat) (l : TimedLine) : Option (List Pins) :=
  (lineCycles w l.hold l.line).map (List.replicate l.wait Pins.quiet ++ ·)

/-- The cycles of a program, each line with its timing: the host's side of a run (R21, R85, R211); none where the assembler
refuses a line. Between two lines stand exactly the idle cycles that the later one's `wait` names, none where it is 0, and the
adapter drives nothing in any of the cycles (DESIGN CHOICE, log 21). -/
def programCycles (w : Nat) : List TimedLine → Option (List Pins)
  | [] => some []
  | l :: ls =>
    match timedCycles w l, programCycles w ls with
    | some c, some cs => some (c ++ cs)
    | _, _ => none

/-! The text of a line (R83). What R83 leaves open of it is the model's choice: DESIGN CHOICE, log 19. -/

/-- The tokens of a line: words, and the marks of a vector. -/
inductive Token where
  | word (cs : List Char)
  | openVector
  | comma
  | closeVector
  deriving DecidableEq, Repr

/-- The characters of a word read so far, last first, as tokens before `rest`. -/
def flushWord (acc : List Char) (rest : List Token) : List Token :=
  match acc with
  | [] => rest
  | _ => .word acc.reverse :: rest

/-- The tokens of a line; `;` starts a comment (R83). Code points 123 and 125 are the opening and the closing brace.
Spaces and tabs separate words, and a brace or a comma needs none beside it (DESIGN CHOICE, log 19). -/
def tokens (acc : List Char) : List Char → List Token
  | [] => flushWord acc []
  | c :: cs =>
    if c = ';' then flushWord acc []
    else if c = ' ' ∨ c = '\t' then flushWord acc (tokens [] cs)
    else if c = ',' then flushWord acc (.comma :: tokens [] cs)
    else if c.toNat = 123 then flushWord acc (.openVector :: tokens [] cs)
    else if c.toNat = 125 then flushWord acc (.closeVector :: tokens [] cs)
    else tokens (c :: acc) cs

/-- The value of a digit in base 16, in either case (DESIGN CHOICE, log 19). -/
def digitValue (c : Char) : Option Nat :=
  let n := c.toNat
  if 48 ≤ n ∧ n ≤ 57 then some (n - 48)
  else if 65 ≤ n ∧ n ≤ 70 then some (n - 55)
  else if 97 ≤ n ∧ n ≤ 102 then some (n - 87)
  else none

/-- A number written in `base`, most significant digit first, continued from `acc`. -/
def numberFrom (base acc : Nat) : List Char → Option Nat
  | [] => some acc
  | c :: cs =>
    match digitValue c with
    | some d => if d < base then numberFrom base (base * acc + d) cs else none
    | none => none

/-- An unsigned decimal code (R83): at least one digit; leading zeros are taken, so 007 is 7, since R83 says nothing of them
(DESIGN CHOICE, log 19). -/
def decimal (cs : List Char) : Option Nat := if cs = [] then none else numberFrom 10 0 cs

/-- `0x` and exactly `n` hex digits. -/
def hexOf (n : Nat) : List Char → Option Nat
  | '0' :: 'x' :: cs => if cs.length = n then numberFrom 16 0 cs else none
  | _ => none

/-- A pattern: `0b` and eight binary digits, bit 7 first, or `0x` and two hex digits (R83). -/
def patternText (cs : List Char) : Option Nat :=
  match cs with
  | '0' :: 'b' :: ds => if ds.length = 8 then numberFrom 2 0 ds else none
  | _ => hexOf 2 cs

/-- The codes of a vector after its opening brace: numbers and commas up to the closing brace, which ends the line. -/
def vectorText : List Token → Option (List Nat)
  | [.closeVector] => some []
  | [.word cs, .closeVector] => (decimal cs).map fun n => [n]
  | .word cs :: .comma :: .word ds :: rest =>
    match decimal cs, vectorText (.word ds :: rest) with
    | some n, some ns => some (n :: ns)
    | _, _ => none
  | _ => none

/-- A line of R83 to R85 from its tokens; the mnemonics are upper case. -/
def lineOfTokens : List Token → Option Line
  | [.word ['T', 'R', 'K', 'A']] => some .trka
  | [.word ['T', 'R', 'A', 'C', 'K']] => some .track
  | [.word ['R', 'E', 'S', 'E', 'T']] => some .reset
  | [.word ['L', 'U', 'T'], .word cs] => (patternText cs).map .lut
  | [.word ['T', 'R', 'K', 'P'], .word cs] => (patternText cs).map .trkp
  | [.word ['T', 'R', 'A', 'C', 'K'], .word cs] => (patternText cs).map .trackPattern
  | [.word ['.', 'c', 'm', 'd'], .word cs] => (hexOf 4 cs).map .cmd
  | .word ['B', 'I', 'N'] :: .openVector :: ts => (vectorText ts).map .bin
  | .word ['T', 'R', 'K', 'V'] :: .openVector :: ts => (vectorText ts).map .trkv
  | .word ['T', 'R', 'A', 'C', 'K'] :: .openVector :: ts => (vectorText ts).map .trackVector
  | .word ['.', 'c', 'm', 'd'] :: .word cs :: .openVector :: ts =>
    match hexOf 4 cs, vectorText ts with
    | some n, some rd => some (.cmdWith n rd)
    | _, _ => none
  | _ => none

/-- The assembler on the text of one line. A line with no token, wholly empty, of spaces only or of a comment only,
assembles to nothing, since R83 says nothing of it (DESIGN CHOICE, log 19). -/
def assembleText (w : Nat) (text : List Char) : Assembled :=
  match tokens [] text with
  | [] => .blank
  | t :: ts =>
    match lineOfTokens (t :: ts) with
    | some l => assemble w l
    | none => .error .notALine

end Sys2Proof.Machine
end

