-- ==== Sys2Proof/Machine/CommandView.lean ====
section
/-! DEFINITION. The command-level view of R39: the state (LAST_POS, phase) and the events accept, answer and reset;
and how a rising edge of the LC shows in it. -/

namespace Sys2Proof.Machine

/-- The phase of the command-level view (R39). -/
inductive ViewPhase where
  | idle
  | waitAcq
  deriving DecidableEq, Repr

/-- The state of the command-level view (R39). -/
structure View where
  lastPos : Byte
  phase : ViewPhase
  deriving DecidableEq, Repr

/-- What the acquisition adapter answers (R39, R181). -/
inductive Answer where
  | data (rd : Bus)
  | transportError
  deriving DecidableEq, Repr

/-- The events of the command-level view (R39). -/
inductive Event where
  | accept (word : CmdWord) (rd : Bus)
  | answer (a : Answer)
  | reset
  deriving DecidableEq, Repr

/-- A response: status, pattern and position (R29, R79). -/
structure Response where
  status : BitVec 2
  pat : Byte
  pos : Byte
  deriving DecidableEq, Repr

/-- The view after reset (R39, R201). -/
def View.reset : View := { lastPos := 0x00, phase := .idle }

/-- A tracking command on pattern `p` completes: the resolved value goes to the latch and to the response (R140). -/
def View.track (v : View) (p : Byte) : View × Option Response :=
  let r := resolvedCode v.lastPos p
  ({ lastPos := r, phase := .idle }, some { status := statusCode .ok, pat := p, pos := r })

/-- Acceptance of a word in phase Idle: a legal TRKA starts to wait; every other word completes at once (R39). -/
def View.accept (w : Nat) (v : View) (word : CmdWord) (rd : Bus) : View × Option Response :=
  match decode word with
  | .command .bin => (v, some { status := statusCode .ok, pat := binarize (readings w rd), pos := noPosition })
  | .command (.lut p) => (v, some { status := statusCode .ok, pat := p, pos := lookupPattern p })
  | .command (.trkp p) => v.track p
  | .command .trkv => v.track (binarize (readings w rd))
  | .command .trka => ({ v with phase := .waitAcq }, none)
  | .illegal _ => (v, some { status := statusCode .illegal, pat := noPattern, pos := noPosition })

/-- The adapter's answer in phase WaitAcq completes the TRKA (R39, R145, R146). -/
def View.answer (w : Nat) (v : View) : Answer → View × Option Response
  | .data rd => v.track (binarize (readings w rd))
  | .transportError =>
    ({ v with phase := .idle }, some { status := statusCode .transport, pat := noPattern, pos := noPosition })

/-- One event of the command-level view; none where the phase has no such event (R39, R209). -/
def View.step (w : Nat) (v : View) : Event → Option (View × Option Response)
  | .accept word rd => if v.phase = .idle then some (v.accept w word rd) else none
  | .answer a => if v.phase = .waitAcq then some (v.answer w a) else none
  | .reset => some (View.reset, none)

/-- A sequence of events: the view it leads to and the responses in order (R39, R61). -/
def View.run (w : Nat) (v : View) : List Event → Option (View × List Response)
  | [] => some (v, [])
  | e :: es =>
    match v.step w e with
    | none => none
    | some (v', r) =>
      match View.run w v' es with
      | none => none
      | some (v'', rs) => some (v'', r.toList ++ rs)

/-! The LC seen at the command level. A command that is no TRKA is seen at its completion edge, since until then it
has had no effect (R15); a TRKA is seen at its acceptance and at its completion. Log 18. -/

/-- The captured word is a legal TRKA. -/
def State.capturedTrka (s : State) : Bool := decide (decode s.capWord = .command .trka)

/-- The phase of the view of a state. -/
def State.viewPhase (s : State) : ViewPhase :=
  match s.seq with
  | .idle => .idle
  | .waitAcq => .waitAcq
  | .exec => if s.capturedTrka then .waitAcq else .idle

/-- The view of a state (R39). -/
def State.view (s : State) : View := { lastPos := s.lastPos, phase := s.viewPhase }

/-- The answer a captured acquisition stands for (R28). -/
def State.capturedAnswer (s : State) : Answer := if s.capErr then .transportError else .data s.capRd

/-- The command-level event of the next edge, if it has one. -/
def State.nextEvent (s : State) : Option Event :=
  if s.pins.rst then some .reset
  else
    match s.seq with
    | .idle =>
      if s.pins.cmdValid && decide (decode s.pins.cmdWord = .command .trka) then
        some (.accept s.pins.cmdWord s.pins.cmdRd)
      else none
    | .waitAcq => none
    | .exec =>
      if s.cnt = 1 then
        if s.capturedTrka then some (.answer s.capturedAnswer) else some (.accept s.capWord s.capRd)
      else none

/-- The response a cycle shows: that of the registers, in the cycle RSP_VALID is high (R29). -/
def State.response (s : State) : Option Response :=
  if s.rspValid then some { status := s.rspStatus, pat := s.rspPat, pos := s.rspPos } else none

/-- What a run of `k` edges shows: the events, the responses of the cycles after the edges, and the last state; none
where an edge has no next state. -/
def observe : Nat → State → Option (List Event × List Response × State)
  | 0, s => some ([], [], s)
  | k + 1, s =>
    match step s with
    | .next t =>
      match observe k t with
      | none => none
      | some (es, rs, u) => some (s.nextEvent.toList ++ es, t.response.toList ++ rs, u)
    | .fault _ => none
    | .refused _ => none

/-! The closed form of the latch over events (R148). -/

/-- The pattern a tracking event completes with status OK on, in the phase Idle or WaitAcq it occurs in; none for
every other event. -/
def trackedPattern (w : Nat) : Event → Option Byte
  | .accept word rd =>
    match decode word with
    | .command .bin => none
    | .command (.lut _) => none
    | .command (.trkp p) => some p
    | .command .trkv => some (binarize (readings w rd))
    | .command .trka => none
    | .illegal _ => none
  | .answer (.data rd) => some (binarize (readings w rd))
  | .answer .transportError => none
  | .reset => none

/-- The events after the last reset of a sequence. -/
def sinceReset : List Event → List Event
  | [] => []
  | e :: es => if Event.reset ∈ es then sinceReset es else if e = .reset then es else e :: es

/-- The defined lookups of the tracking events of a sequence, in order. -/
def definedLookups (w : Nat) (es : List Event) : List Byte :=
  ((es.filterMap (trackedPattern w)).map lookupPattern).filter isDefined

end Sys2Proof.Machine
end

