-- ==== Sys2Proof/Machine/Ports.lean ====
section
/-! DEFINITION. The output ports (R33, R35 to R38), as functions of the state and the port values of its cycle. -/

namespace Sys2Proof.Machine

/-- The values on the output ports in one cycle (R33). -/
structure Outputs where
  cmdReady : Bool
  rspValid : Bool
  rspStatus : BitVec 2
  rspPat : Byte
  rspPos : Byte
  acqReq : Bool
  busy : Bool
  lastPos : Byte
  deriving DecidableEq, Repr

/-- `busy = (SEQ != IDLE)` (R35). -/
def State.busy (s : State) : Bool := decide (s.seq ≠ .idle)

/-- `acq_req = (SEQ = WAIT_ACQ)` (R37). -/
def State.acqReq (s : State) : Bool := decide (s.seq = .waitAcq)

/-- The output ports: the response registers and LAST_POS driven directly (R36, R38). -/
def State.outputs (s : State) : Outputs :=
  { cmdReady := s.cmdReady
    rspValid := s.rspValid
    rspStatus := s.rspStatus
    rspPat := s.rspPat
    rspPos := s.rspPos
    acqReq := s.acqReq
    busy := s.busy
    lastPos := s.lastPos }

end Sys2Proof.Machine
end

