-- ==== Sys2Proof/Safety.lean ====
section
/-! DEFINITION. What a good state of the LC is, in the terms the statements use. -/

namespace Sys2Proof.Machine

/-- The codes RSP_POS may hold: a position the LC produces, or 0x80 (R76, R79). -/
def responseCodes : List Byte := noPosition :: latchCodes

/-- In EXEC the count lies in 1..LAT_EXEC (R27). -/
abbrev State.countInv (s : State) : Prop := s.seq = .exec → 1 ≤ s.cnt ∧ s.cnt ≤ s.params.latExec

/-- Only a legal TRKA waits for the adapter (R27, R171). -/
abbrev State.waitInv (s : State) : Prop := s.seq = .waitAcq → decode s.capWord = .command .trka

/-- The response strobe is high in IDLE only (R210). -/
abbrev State.strobeInv (s : State) : Prop := s.rspValid = true → s.seq = .idle

/-- The invariant of the LC from the first reset on: parameters in range (R11), a latch that holds one of the 15 codes
(R24), a sequencer in a state R27 leads to, a CAP_RD of `8 * W` bits (R22), and a response of codes the LC produces
(R76, R78). -/
abbrev State.Inv (s : State) : Prop :=
  s.params.wf = true ∧ s.lastPos ∈ latchCodes ∧ s.countInv ∧ s.waitInv ∧ WellFormed.busOk s.params.width s.capRd = true ∧
    s.rspStatus ≠ 0b11 ∧ s.rspPos ∈ responseCodes ∧ s.strobeInv

/-- The next edge is the completion edge of command `i` (R27). -/
abbrev State.completes (s : State) : Prop := s.seq = .exec ∧ s.cnt = 1

/-- Two states agree on everything but the registers whose reset values are unspecified, and the counter they are drawn
with (R22, I12). -/
def State.agreeOnSpecified (s t : State) : Prop :=
  s.lastPos = t.lastPos ∧ s.seq = t.seq ∧ s.rspStatus = t.rspStatus ∧ s.rspPat = t.rspPat ∧ s.rspPos = t.rspPos ∧
    s.rspValid = t.rspValid ∧ s.params = t.params ∧ s.inputs = t.inputs ∧ s.standing = t.standing

/-- `k` steps of the machine lead from `s` to `t`. -/
def reaches (k : Nat) (s t : State) : Prop := Host.Core.run Sys2Proof.core k s = .next t

/-- The state with other values on the acquisition ports of the coming edge. -/
def State.withAnswerPins (s : State) (done err : Bool) (rd : Bus) : State :=
  { s with
    inputs := { s.inputs.headD Pins.quiet with acqDone := done, acqErr := err, acqRd := rd } :: s.inputs.tail }

/-- The state with another PAT in the word offered to the coming edge. -/
def State.withOfferedPat (s : State) (pat : Byte) : State :=
  let p := s.inputs.headD Pins.quiet
  { s with inputs := { p with cmdWord := (p.cmdWord &&& 0xFF00) ||| pat.setWidth 16 } :: s.inputs.tail }

/-- The state with another reading bus offered to the coming edge. -/
def State.withOfferedBus (s : State) (rd : Bus) : State :=
  { s with inputs := { s.inputs.headD Pins.quiet with cmdRd := rd } :: s.inputs.tail }

/-- In the coming `k` cycles the host neither resets the LC nor offers a command. -/
def hostQuiet (k : Nat) (cycles : List Pins) : Prop :=
  ∀ q ∈ cycles.take k, q.rst = false ∧ q.cmdValid = false

/-- What a run of `k` steps shows on the output ports of its last cycle; none where an edge has no next state. -/
def outputsAfter (k : Nat) (s : State) : Option Outputs :=
  match Host.Core.run Sys2Proof.core k s with
  | .next t => some t.outputs
  | .fault _ => none
  | .refused _ => none

end Sys2Proof.Machine
end

