-- ==== Sys2Proof/Certificates/Slice0/Obligations.lean ====
section
/-! DEFINITION. The statements for the provers. -/

open Sys2Proof Sys2Proof.Machine

/-! Encodings. -/

/-- Decoding an encoded command gives the command back, with every operand (R70, R81, R83). -/
def Obligations.DecodeUndoesEncode : Prop :=
  ∀ i : Instr, WellFormed.instrOk i = true → decode (encode i) = .command i

/-- Encoding a decoded word gives the word back, but for the PAT that BIN, TRKV and TRKA ignore, which the assembler
writes as 0 (R73, R83). -/
def Obligations.EncodeRebuildsDecodedWord : Prop :=
  ∀ (w : CmdWord) (i : Instr), decode w = .command i →
    encode i =
      match i with
      | .bin => w &&& 0xFF00
      | .lut _ => w
      | .trkp _ => w
      | .trkv => w &&& 0xFF00
      | .trka => w &&& 0xFF00

/-- The opcode map of R80 and R81: the range of words of each command, its pattern operand, and the illegal words. -/
def Obligations.WordsDecodeByRange : Prop :=
  ∀ w : CmdWord,
    (decode w = .command .bin ↔ w.toNat ≤ 0x00FF) ∧
    (∀ p, decode w = .command (.lut p) ↔ w.toNat = 0x0100 + p.toNat) ∧
    (∀ p, decode w = .command (.trkp p) ↔ w.toNat = 0x0200 + p.toNat) ∧
    (decode w = .command .trkv ↔ 0x0300 ≤ w.toNat ∧ w.toNat ≤ 0x03FF) ∧
    (decode w = .command .trka ↔ 0x0400 ≤ w.toNat ∧ w.toNat ≤ 0x04FF) ∧
    ((∃ e, decode w = .illegal e) ↔ 0x0500 ≤ w.toNat)

/-- Words of 95_test_vectors.md section 5.1 decode as that table says. -/
def Obligations.SampleWordsDecode : Prop :=
  decode 0x0000 = .command .bin ∧ decode 0x00FF = .command .bin ∧ decode 0x0123 = .command (.lut 0x23) ∧
    decode 0x02AA = .command (.trkp 0xAA) ∧ decode 0x03FF = .command .trkv ∧ decode 0x0400 = .command .trka ∧
    decode 0x0500 = .illegal (.reservedOp 5) ∧ decode 0x8120 = .illegal (.reservedBits 16)

/-- R54: channel `i` is bits `[W*(8-i)-1 : W*(7-i)]` of a reading bus, and the bus is the concatenation of its channels,
channel 0 most significant; for every `W` of R7. -/
def Obligations.ReadingBusSlices : Prop :=
  ∀ w : Nat, WellFormed.widthOk w = true →
    (∀ (b : Bus) (i : Fin 8), readings w b i = (b.extractLsb' (w * (7 - i.val)) w).toNat) ∧
    (∀ rd : Readings, (∀ i, rd i < 2 ^ w) → readings w (busOf w rd) = rd) ∧
    (∀ b : Bus, WellFormed.busOk w b = true → busOf w (readings w b) = b)

/-! The binarizer. -/

/-- R100, R102, R103: bit `7 - i` is 1 exactly when twice the reading of channel `i` is not less than the sum of the least
and the greatest reading, a tie giving 1. -/
def Obligations.PatternBitIsMidpointTest : Prop :=
  ∀ (rd : Readings) (mn mx : Nat), (∀ i, mn ≤ rd i) → (∃ i, rd i = mn) → (∀ i, rd i ≤ mx) → (∃ i, rd i = mx) →
    ∀ i : Fin 8, (binarize rd).getLsbD (7 - i.val) = decide (mn + mx ≤ 2 * rd i)

/-- R104: a uniform vector gives 0xFF. -/
def Obligations.UniformVectorGivesAllOnes : Prop :=
  ∀ (rd : Readings) (c : Nat), (∀ i, rd i = c) → binarize rd = 0xFF

/-- R105: a channel at the greatest reading gives 1 and, in a vector that is not uniform, one at the least gives 0; so the
pattern is never 0x00, is 0xFF exactly when all codes are equal, and otherwise has a 1 and a 0. -/
def Obligations.PatternsTheBinarizerProduces : Prop :=
  ∀ rd : Readings,
    (∀ i : Fin 8, (∀ j, rd j ≤ rd i) → (binarize rd).getLsbD (7 - i.val) = true) ∧
    (∀ i : Fin 8, (∀ j, rd i ≤ rd j) → (∃ j, rd i < rd j) → (binarize rd).getLsbD (7 - i.val) = false) ∧
    binarize rd ≠ 0x00 ∧ (binarize rd = 0xFF ↔ ∀ i j, rd i = rd j) ∧
    (binarize rd ≠ 0xFF → (∃ j, j < 8 ∧ (binarize rd).getLsbD j = true) ∧ ∃ j, j < 8 ∧ (binarize rd).getLsbD j = false)

/-- R101: the source's threshold is the midpoint, and on readings that are the codes scaled by any positive factor the
source's rational algorithm gives the LC's pattern. -/
def Obligations.ExactThresholdEquivalence : Prop :=
  (∀ r : Fin 8 → ℚ, thresholdQ r = (lowestQ r + highestQ r) / 2) ∧
    ∀ (rd : Readings) (k : ℚ), 0 < k → binarizeQ (fun i => k * (rd i : ℚ)) = binarize rd

/-- R106: affine invariance, mirror, inversion up to ties, and permutation. -/
def Obligations.BinarizerLaws : Prop :=
  (∀ (r : Fin 8 → ℚ) (a b : ℚ), 0 < a → binarizeQ (fun i => a * r i + b) = binarizeQ r) ∧
  (∀ (rd : Readings) (a b : ℚ), 0 < a → binarizeQ (fun i => a * (rd i : ℚ) + b) = binarize rd) ∧
  (∀ rd : Readings, binarize (fun i => rd i.rev) = rev (binarize rd)) ∧
  (∀ (w : Nat) (rd : Readings), (∀ i, rd i ≤ 2 ^ w - 1) →
    (∀ i : Fin 8, (binarize fun j => 2 ^ w - 1 - rd j).getLsbD (7 - i.val) = decide (2 * rd i ≤ lowest rd + highest rd)) ∧
    binarize (fun j => 2 ^ w - 1 - rd j) =
      ~~~(binarize rd) ||| packPattern fun i => decide (2 * rd i = lowest rd + highest rd)) ∧
  (∀ (rd : Readings) (f : Fin 8 ≃ Fin 8) (i : Fin 8),
    (binarize fun j => rd (f j)).getLsbD (7 - i.val) = (binarize rd).getLsbD (7 - (f i).val))

/-- R108: for `W` up to 32 every intermediate fits `W + 1 <= 33` bits, and computing in `W + 1` bits gives the same
pattern: nothing wraps. -/
def Obligations.OneExtraBitSuffices : Prop :=
  ∀ (w : Nat) (rd : Readings), WellFormed.widthOk w = true → (∀ i, rd i < 2 ^ w) →
    w + 1 ≤ 33 ∧ extremesSum rd ≤ 2 ^ (w + 1) - 2 ∧ (∀ i, 2 * rd i ≤ 2 ^ (w + 1) - 2) ∧
      binarizeAtWidth w rd = binarize rd

/-! The lookup ROM. -/

/-- R77: UNDEF is 0x80, -128, outside the range of the positions of R76, and it alone stands for no position; DEFINED tells
it from every other code (R30). -/
def Obligations.UndefStandsForNoPosition : Prop :=
  undef = 0x80 ∧ sext8 undef = -128 ∧ ¬ (-8 ≤ sext8 undef ∧ sext8 undef ≤ 8) ∧
    ∀ c : Byte, (position c = none ↔ c = undef) ∧ (isDefined c = true ↔ (position c).isSome = true) ∧
      (c ≠ undef → position c = some ((sext8 c : ℚ) / 8))

/-- The 23 entries of R120, each with the source's position, in eighths; the other 233 patterns hold UNDEF (R121). -/
def Obligations.RomHoldsTheTable : Prop :=
  let table : List (Byte × Int) :=
    [(0b00011000, 0), (0b00010000, 2), (0b00111000, 2), (0b00001000, -2), (0b00011100, -2), (0b00110000, 3),
     (0b00001100, -3), (0b00100000, 4), (0b01110000, 4), (0b00000100, -4), (0b00001110, -4), (0b01100000, 5),
     (0b11100000, 5), (0b00000110, -5), (0b00000111, -5), (0b01000000, 6), (0b11110000, 6), (0b00000010, -6),
     (0b00001111, -6), (0b11000000, 7), (0b00000011, -7), (0b10000000, 8), (0b00000001, -8)]
  (∀ e ∈ table, sext8 (lookupPattern e.1) = e.2 ∧ lookupPattern e.1 ≠ undef) ∧
    ∀ p : Byte, p ∉ table.map Prod.fst → lookupPattern p = 0x80

/-- R124: mirrored patterns have negated positions, and 0x18 alone of the defined patterns is its own mirror. -/
def Obligations.LookupMirrorAntisymmetry : Prop :=
  ∀ p : Byte,
    (lookupPattern (rev p) = undef ↔ lookupPattern p = undef) ∧
    (lookupPattern p ≠ undef → sext8 (lookupPattern (rev p)) = -sext8 (lookupPattern p)) ∧
    (lookupPattern p ≠ undef ∧ rev p = p ↔ p = 0x18) ∧ sext8 (lookupPattern 0x18) = 0

/-- R125: a lookup is defined exactly on the runs of 1, 2 or 3 ones and on 0xF0 and 0x0F. -/
def Obligations.DefinedPatternsAreShortRuns : Prop :=
  ∀ p : Byte, lookupPattern p ≠ undef ↔
    (∃ k ∈ [1, 2, 3], ∃ j ∈ List.range 8, j + k ≤ 8 ∧ p.toNat = (2 ^ k - 1) * 2 ^ j) ∨ p = 0xF0 ∨ p = 0x0F

/-- R126: which positions occur, how many patterns give each, and that a run nearer channel 0 gives a positive one. -/
def Obligations.LookupValuesAndSigns : Prop :=
  (∀ p : Byte, lookupPattern p ≠ undef →
    sext8 (lookupPattern p) ∈ [0, 2, 3, 4, 5, 6, 7, 8, -2, -3, -4, -5, -6, -7, -8] ∧
      (0 < sext8 (lookupPattern p) ↔ (rev p).toNat < p.toNat)) ∧
  position (lookupPattern 0x80) = some 1 ∧ position (lookupPattern 0x01) = some (-1) ∧
  (∀ x ∈ ([0, 3, -3, 7, -7, 8, -8] : List Int),
    ((List.range 256).filter fun n => sext8 (lookupPattern (BitVec.ofNat 8 n)) = x).length = 1) ∧
  ∀ x ∈ ([2, -2, 4, -4, 5, -5, 6, -6] : List Int),
    ((List.range 256).filter fun n => sext8 (lookupPattern (BitVec.ofNat 8 n)) = x).length = 2

/-! The commands. Each completion gives the whole next state, and so the frame: what is not named is unchanged. -/

/-- BIN completes (R111): the pattern of the captured vector and the fill position; the latch and every other register but
SEQ as before. -/
def Obligations.BinCompletes : Prop :=
  ∀ s : State, s.completes →
    exec .bin s = .next { s with
      seq := .idle, rspStatus := 0b00, rspPat := binarize (readings s.params.width s.capRd), rspPos := 0x80
      rspValid := true }

/-- LUT completes (R127): the pattern and its lookup, possibly UNDEF; the latch and every other register but SEQ as
before. -/
def Obligations.LutCompletes : Prop :=
  ∀ (p : Byte) (s : State), s.completes →
    exec (.lut p) s = .next { s with
      seq := .idle, rspStatus := 0b00, rspPat := p, rspPos := lookupPattern p, rspValid := true }

/-- TRKP completes (R143): the lookup, or the latch where it is UNDEF, goes to the response and to the latch; every other
register but SEQ as before. -/
def Obligations.TrkpCompletes : Prop :=
  ∀ (p : Byte) (s : State), s.completes →
    ∀ v : Byte, v = (if lookupPattern p = 0x80 then s.lastPos else lookupPattern p) →
      exec (.trkp p) s = .next { s with
        seq := .idle, lastPos := v, rspStatus := 0b00, rspPat := p, rspPos := v, rspValid := true }

/-- TRKV completes (R144): as TRKP on the pattern of the captured vector. -/
def Obligations.TrkvCompletes : Prop :=
  ∀ s : State, s.completes →
    ∀ p v : Byte, p = binarize (readings s.params.width s.capRd) →
      v = (if lookupPattern p = 0x80 then s.lastPos else lookupPattern p) →
      exec .trkv s = .next { s with
        seq := .idle, lastPos := v, rspStatus := 0b00, rspPat := p, rspPos := v, rspValid := true }

/-- TRKA completes on data (R145): as TRKV on the acquired vector. -/
def Obligations.TrkaCompletesWithData : Prop :=
  ∀ s : State, s.completes → s.capErr = false →
    ∀ p v : Byte, p = binarize (readings s.params.width s.capRd) →
      v = (if lookupPattern p = 0x80 then s.lastPos else lookupPattern p) →
      exec .trka s = .next { s with
        seq := .idle, lastPos := v, rspStatus := 0b00, rspPat := p, rspPos := v, rspValid := true }

/-- TRKA on a transport error (R146): status TRANSPORT, the fill values, the latch neither read nor written. -/
def Obligations.TrkaCompletesWithTransportError : Prop :=
  ∀ s : State, s.completes → s.capErr = true →
    exec .trka s = .next { s with
      seq := .idle, rspStatus := 0b10, rspPat := 0x00, rspPos := 0x80, rspValid := true }

/-- The acceptance edge of every command (R27, R28): the ports are captured, TRKA starts to wait and every other command
to count; nothing else changes but the strobe. -/
def Obligations.EveryCommandIsAccepted : Prop :=
  ∀ (i : Instr) (s : State), s.seq = .idle →
    exec i s = .next
      (if i = .trka then
        { s with seq := .waitAcq, capWord := s.pins.cmdWord, capRd := s.pins.cmdRd, rspValid := false }
      else
        { s with
          seq := .exec, cnt := s.params.latExec, capWord := s.pins.cmdWord, capRd := s.pins.cmdRd, rspValid := false })

/-- TRKA waiting (R27, R28, R145, R209): without an answer it goes on waiting; an answer is captured, its data only if it
is no error, and the count starts. -/
def Obligations.TrkaWaitsForTheAnswer : Prop :=
  ∀ s : State, s.seq = .waitAcq →
    (s.pins.acqDone = false → exec .trka s = .next { s with rspValid := false }) ∧
    (s.pins.acqDone = true → s.pins.acqErr = true →
      exec .trka s = .next { s with seq := .exec, cnt := s.params.latExec, capErr := true, rspValid := false }) ∧
    (s.pins.acqDone = true → s.pins.acqErr = false →
      exec .trka s = .next { s with
        seq := .exec, cnt := s.params.latExec, capErr := false, capRd := s.pins.acqRd, rspValid := false })

/-- Before its completion edge a command in EXEC only counts (R15, R27): CNT falls by 1 and the strobe is low. -/
def Obligations.EveryCommandCounts : Prop :=
  ∀ (i : Instr) (s : State), s.seq = .exec → 1 < s.cnt →
    exec i s = .next { s with cnt := s.cnt - 1, rspValid := false }

/-- The frame of every command in every phase: only a completion writes the latch or the response, only an acceptance
writes CAP_WORD, only an answer writes CAP_ERR, EXEC writes no capture register; BIN and LUT never write the latch; no
command changes the parameters or what the agents drive. -/
def Obligations.CommandFrame : Prop :=
  ∀ (i : Instr) (s t : State), exec i s = .next t →
    t.params = s.params ∧ t.inputs = s.inputs ∧ t.standing = s.standing ∧ t.freeCount = s.freeCount ∧
    (s.seq ≠ .idle → t.capWord = s.capWord) ∧ (s.seq ≠ .waitAcq → t.capErr = s.capErr) ∧
    (s.seq = .exec → t.capRd = s.capRd) ∧
    (¬ s.completes → t.lastPos = s.lastPos ∧ t.rspStatus = s.rspStatus ∧ t.rspPat = s.rspPat ∧ t.rspPos = s.rspPos ∧
      t.rspValid = false) ∧
    (i = .bin ∨ (∃ p, i = .lut p) → t.lastPos = s.lastPos)

/-- `Resolve` (R140): the lookup, or the latch where the lookup is UNDEF; the returned value is written to the latch. -/
def Obligations.ResolveFallsBackToTheLatch : Prop :=
  ∀ (s : State) (p : Byte),
    (s.resolve p).1 = (if lookupPattern p = 0x80 then s.lastPos else lookupPattern p) ∧
      (s.resolve p).2 = { s with lastPos := (s.resolve p).1 }

/-- The model's own stop (log 11): a command stops only in EXEC with CNT = 0, for which R27 gives no transition, and there
with the fault of that name; no command is ever refused. -/
def Obligations.CommandsStopOnlyWithoutCount : Prop :=
  ∀ (i : Instr) (s : State),
    (s.seq = .exec ∧ s.cnt = 0 → exec i s = .fault .execWithoutCount) ∧
    (¬ (s.seq = .exec ∧ s.cnt = 0) → ∃ t, exec i s = .next t)

/-! The step. -/

/-- A step runs the decoded command: with `rst = 0` and the host keeping its duty, if the word offered in IDLE, or the
captured word otherwise, decodes to `i`, the step is `exec i`, after which the ports carry the next listed values and an
offer not accepted stands. -/
def Obligations.StepRunsTheDecodedCommand : Prop :=
  ∀ (s : State) (w : CmdWord) (i : Instr), s.pins.rst = false → s.offerChanged = false →
    (if s.seq = .idle then s.pins.cmdValid = true ∧ w = s.pins.cmdWord else w = s.capWord) →
    decode w = .command i →
    step s =
      match exec i s with
      | .next t => .next { t with inputs := s.inputs.tail, standing := s.standingAfter }
      | .fault r => .fault r
      | .refused r => .refused r

/-- In IDLE with nothing offered a step keeps every register but the strobe (R29, R185). -/
def Obligations.IdleStepHoldsState : Prop :=
  ∀ s : State, s.pins.rst = false → s.seq = .idle → s.pins.cmdValid = false →
    step s = .next { s with rspValid := false, inputs := s.inputs.tail, standing := none }

/-- R171: an illegal word is accepted into EXEC, never into WAIT_ACQ, and completes with status ILLEGAL and the fill
values, with no other change; `cmd_rd` and the latch do not enter. -/
def Obligations.IllegalWordCompletes : Prop :=
  (∀ (s : State) (e : IllegalWord), s.seq = .idle → s.pins.rst = false → s.offerChanged = false →
    s.pins.cmdValid = true → decode s.pins.cmdWord = .illegal e →
    step s = .next { s with
      seq := .exec, cnt := s.params.latExec, capWord := s.pins.cmdWord, capRd := s.pins.cmdRd, rspValid := false
      inputs := s.inputs.tail, standing := none }) ∧
  (∀ (s : State) (e : IllegalWord), s.completes → s.pins.rst = false → s.offerChanged = false →
    decode s.capWord = .illegal e →
    step s = .next { s with
      seq := .idle, rspStatus := 0b01, rspPat := 0x00, rspPos := 0x80, rspValid := true
      inputs := s.inputs.tail, standing := s.standingAfter })

/-- R25, R201: a reset edge always has a next state, with LAST_POS = 0x00, position 0.0, SEQ = IDLE and the response
registers at their reset values, whatever the state before; the output ports of the next cycle follow, if `rst = 0` in
it. State.reset has the same values. -/
def Obligations.ResetEdgeSetsResetValues : Prop :=
  (∀ s : State, s.pins.rst = true →
    ∃ t, step s = .next t ∧ t.lastPos = 0x00 ∧ position t.lastPos = some 0 ∧ t.seq = .idle ∧ t.rspStatus = 0b00 ∧
      t.rspPat = 0x00 ∧ t.rspPos = 0x80 ∧ t.rspValid = false ∧ t.params = s.params ∧ t.inputs = s.inputs.tail ∧
      (t.pins.rst = false → t.cmdReady = true) ∧ t.busy = false ∧ t.acqReq = false) ∧
  State.reset.lastPos = 0x00 ∧ State.reset.seq = .idle ∧ State.reset.rspStatus = 0b00 ∧ State.reset.rspPat = 0x00 ∧
    State.reset.rspPos = 0x80 ∧ State.reset.rspValid = false

/-- The transitions of SEQ and CNT (R27), and SEQ = IDLE after a reset edge. -/
def Obligations.SequencerTransitions : Prop :=
  ∀ s t : State, step s = .next t →
    (s.pins.rst = true → t.seq = .idle) ∧
    (s.pins.rst = false →
      match s.seq with
      | .idle =>
        if s.pins.cmdValid = true then
          if decode s.pins.cmdWord = .command .trka then t.seq = .waitAcq
          else t.seq = .exec ∧ t.cnt = s.params.latExec
        else t.seq = .idle
      | .waitAcq =>
        if s.pins.acqDone = true then t.seq = .exec ∧ t.cnt = s.params.latExec else t.seq = .waitAcq
      | .exec => if s.cnt = 1 then t.seq = .idle else 1 < s.cnt ∧ t.seq = .exec ∧ t.cnt = s.cnt - 1)

/-- The capture registers are written only at an acceptance, from the command ports, and at an answer, from the
acquisition ports (R28). -/
def Obligations.CaptureRegisters : Prop :=
  ∀ s t : State, step s = .next t → s.pins.rst = false →
    (s.accepting = true → t.capWord = s.pins.cmdWord ∧ t.capRd = s.pins.cmdRd ∧ t.capErr = s.capErr) ∧
    (s.acqReq = true ∧ s.pins.acqDone = true →
      t.capWord = s.capWord ∧ t.capErr = s.pins.acqErr ∧
        t.capRd = if s.pins.acqErr = true then s.capRd else s.pins.acqRd) ∧
    (s.accepting = false ∧ ¬ (s.acqReq = true ∧ s.pins.acqDone = true) →
      t.capWord = s.capWord ∧ t.capRd = s.capRd ∧ t.capErr = s.capErr)

/-- The response registers (R29): RSP_VALID is high after a completion edge and after no other, and the response changes
at no edge but a completion and a reset. -/
def Obligations.ResponseStrobe : Prop :=
  ∀ s t : State, step s = .next t → s.pins.rst = false →
    (t.rspValid = true ↔ s.completes) ∧
    (¬ s.completes → t.rspStatus = s.rspStatus ∧ t.rspPat = s.rspPat ∧ t.rspPos = s.rspPos)

/-- R35: `cmd_ready` and `busy`; and so an LC that is busy accepts nothing: one command is in flight at a time. -/
def Obligations.ReadyAndBusy : Prop :=
  ∀ s : State,
    (s.outputs.cmdReady = true ↔ s.seq = .idle ∧ s.pins.rst = false) ∧ (s.outputs.busy = true ↔ s.seq ≠ .idle) ∧
      (s.outputs.busy = true → s.accepting = false)

/-- R36, R38: the response ports are the response registers and `last_pos` is LAST_POS, in every state. -/
def Obligations.RegistersDriveThePorts : Prop :=
  ∀ s : State, s.outputs.rspValid = s.rspValid ∧ s.outputs.rspStatus = s.rspStatus ∧ s.outputs.rspPat = s.rspPat ∧
    s.outputs.rspPos = s.rspPos ∧ s.outputs.lastPos = s.lastPos

/-- R37: `acq_req` is high in WAIT_ACQ exactly; it rises at the acceptance of a legal TRKA and nowhere else; it falls at
the edge that samples an answer or at a reset and nowhere else; while it is low the acquisition ports are ignored. -/
def Obligations.AcquisitionRequest : Prop :=
  ∀ s : State,
    (s.outputs.acqReq = true ↔ s.seq = .waitAcq) ∧
    (∀ t, step s = .next t →
      (s.acqReq = false → (t.acqReq = true ↔ s.accepting = true ∧ decode s.pins.cmdWord = .command .trka)) ∧
      (s.acqReq = true → (t.acqReq = false ↔ s.pins.rst = true ∨ s.pins.acqDone = true))) ∧
    (s.acqReq = false → ∀ done err rd, step (s.withAnswerPins done err rd) = step s)

/-- LAST_POS is written only at a reset edge and at the completion, with status OK, of a tracking command, at the same
edge as the response that shows it (R26, R58, R141). -/
def Obligations.LatchWrittenOnlyByTracking : Prop :=
  ∀ s t : State, step s = .next t → s.pins.rst = false → t.lastPos ≠ s.lastPos →
    s.completes ∧
      (decode s.capWord = .command .trkv ∨ decode s.capWord = .command .trka ∨
        ∃ p, decode s.capWord = .command (.trkp p)) ∧
      t.rspValid = true ∧ t.rspStatus = 0b00 ∧ t.rspPos = t.lastPos

/-- R142: `Resolve` never returns UNDEF and LAST_POS never becomes UNDEF, from a latch that does not hold it. -/
def Obligations.LatchNeverBecomesUndef : Prop :=
  (∀ (s : State) (p : Byte), s.lastPos ≠ undef → (s.resolve p).1 ≠ undef) ∧
    ∀ s t : State, s.lastPos ≠ undef → step s = .next t → t.lastPos ≠ undef

/-- Only BIN and LUT respond OK with 0x80 as the position (R30, R79): a tracking command never does. -/
def Obligations.OkWithoutPositionIsBinOrLut : Prop :=
  ∀ s t : State, s.lastPos ≠ undef → s.pins.rst = false → s.completes → step s = .next t → t.rspStatus = 0b00 →
    t.rspPos = 0x80 → decode s.capWord = .command .bin ∨ ∃ p, decode s.capWord = .command (.lut p)

/-- R212: the model has no move for a host that changes the operands of the command it keeps on offer. The refusal and the
record of a standing offer are the model's form of it (log 12). -/
def Obligations.ChangedOfferIsRefused : Prop :=
  ∀ (s : State) (o : Offer), s.standing = some o → s.pins.rst = false → s.pins.cmdValid = true →
    (s.pins.cmdWord ≠ o.word ∨ s.pins.cmdRd ≠ o.rd) → step s = .refused .operandsChanged

/-- From a state of the invariant every edge has a next state, but for the edge of a host that breaks its duty. -/
def Obligations.EveryLawfulEdgeHasANextState : Prop :=
  ∀ s : State, s.Inv → s.pins.rst = true ∨ s.offerChanged = false → ∃ t, step s = .next t

/-- R209: while the adapter does not answer and no reset comes, the LC stays in WAIT_ACQ, busy and not ready, its latch as
it was, for any number of edges; and the edges go on. -/
def Obligations.UnansweredTrkaWaitsForEver : Prop :=
  ∀ (k : Nat) (s : State), s.seq = .waitAcq → (∀ q ∈ s.inputs.take k, q.rst = false ∧ q.acqDone = false) →
    (∀ t, reaches k s t →
      t.seq = .waitAcq ∧ t.outputs.busy = true ∧ t.outputs.cmdReady = false ∧ t.lastPos = s.lastPos) ∧
    ((∀ q ∈ s.inputs.take k, q.cmdValid = false) → ∃ t, reaches k s t)

/-- R202: after a reset edge in any state, while the host offers no new command, no response ever appears and the latch
keeps its reset value, whatever the adapter answers: the abandoned command is gone. -/
def Obligations.ResetAbandonsTheCommand : Prop :=
  ∀ (k : Nat) (s t : State), s.pins.rst = true → (∀ q ∈ s.inputs.tail.take k, q.cmdValid = false) →
    reaches (k + 1) s t → t.rspValid = false ∧ t.seq = .idle ∧ t.acqReq = false ∧ t.lastPos = 0x00

/-! Headlines. -/

/-- The invariant holds at State.reset. -/
def Obligations.ResetStateHasInvariant : Prop := State.reset.Inv

/-- Every step keeps the invariant: parameters in range, the latch at one of its 15 codes, the sequencer in a state R27
leads to, CAP_RD within `8 * W` bits, the response at codes the LC produces. -/
def Obligations.StepKeepsInvariant : Prop := ∀ s t : State, s.Inv → step s = .next t → t.Inv

/-- R24: from the first reset on, whatever the state before it, LAST_POS holds one of the 15 codes, which are 0x00 and the
values of the lookup table; never UNDEF, 0x01 or 0xFF. -/
def Obligations.LatchHoldsAPositionAfterReset : Prop :=
  (∀ (k : Nat) (s t : State), s.pins.rst = true → reaches (k + 1) s t →
    t.lastPos ∈ [0x00, 0x02, 0x03, 0x04, 0x05, 0x06, 0x07, 0x08, 0xFE, 0xFD, 0xFC, 0xFB, 0xFA, 0xF9, 0xF8] ∧
      t.lastPos ≠ undef ∧ t.lastPos ≠ 0x01 ∧ t.lastPos ≠ 0xFF) ∧
  ∀ c : Byte, (∃ p, lookupPattern p = c ∧ c ≠ undef) ↔
    c ∈ ([0x00, 0x02, 0x03, 0x04, 0x05, 0x06, 0x07, 0x08, 0xFE, 0xFD, 0xFC, 0xFB, 0xFA, 0xF9, 0xF8] : List Byte)

/-- R39: the clocked LC refines the command-level view: whatever a run of edges shows, its events are a run of the view
from the view of the first state to the view of the last, with the same responses in the same order. -/
def Obligations.ClockedRunRefinesCommandView : Prop :=
  ∀ (k : Nat) (s t : State) (es : List Event) (rs : List Response), s.Inv → observe k s = some (es, rs, t) →
    s.view.run s.params.width es = some (t.view, rs)

/-- R148: LAST_POS is the last defined lookup of a completed tracking command since the last reset, or the reset value
0x00 if there is none; over a run with no reset, or the latch the run began with. -/
def Obligations.LatchClosedForm : Prop :=
  ∀ (k : Nat) (s t : State) (es : List Event) (rs : List Response), s.Inv → observe k s = some (es, rs, t) →
    t.lastPos =
      (definedLookups s.params.width (sinceReset es)).getLastD (if Event.reset ∈ es then 0x00 else s.lastPos)

/-- R147: after a tracking command with a defined lookup, every later tracking command with an UNDEF lookup responds that
value and leaves it in the latch, until a tracking command with a defined lookup or a reset. -/
def Obligations.LatchHoldsThroughAmbiguousFrames : Prop :=
  ∀ (k : Nat) (s t : State) (e f : Event) (es : List Event) (rs : List Response) (p q : Byte), s.Inv →
    observe k s = some (e :: es ++ [f], rs, t) →
    trackedPattern s.params.width e = some p → lookupPattern p ≠ undef →
    (∀ g ∈ es, g ≠ Event.reset ∧ ∀ r, trackedPattern s.params.width g = some r → lookupPattern r = undef) →
    trackedPattern s.params.width f = some q → lookupPattern q = undef →
    t.lastPos = lookupPattern p ∧ rs.getLast? = some { status := 0b00, pat := q, pos := lookupPattern p }

/-- R22, R28: what CNT, CAP_WORD, CAP_RD and CAP_ERR hold in IDLE is unobservable: two states that differ only there show
the same outputs after any number of edges. -/
def Obligations.UnspecifiedRegistersAreUnobservable : Prop :=
  ∀ (k : Nat) (s t : State), s.seq = .idle → s.agreeOnSpecified t → outputsAfter k s = outputsAfter k t

/-- R73: PAT is ignored by BIN, TRKV and TRKA: any value of it in an accepted word gives the same outputs for ever; the
encoder writes 0 there; for LUT and TRKP it is the pattern operand, at every one of its values. -/
def Obligations.IgnoredPatIsUnobservable : Prop :=
  (∀ (k : Nat) (s : State) (pat : Byte), s.accepting = true → s.standing = none →
    (decode s.pins.cmdWord = .command .bin ∨ decode s.pins.cmdWord = .command .trkv ∨
      decode s.pins.cmdWord = .command .trka) →
    outputsAfter k (s.withOfferedPat pat) = outputsAfter k s) ∧
  fieldPat (encode .bin) = 0 ∧ fieldPat (encode .trkv) = 0 ∧ fieldPat (encode .trka) = 0 ∧
  ∀ p : Byte, decode (packWord 1 p) = .command (.lut p) ∧ decode (packWord 2 p) = .command (.trkp p)

/-- R74: `cmd_rd` is ignored by LUT, TRKP, TRKA and illegal words: any value of it beside an accepted word gives the same
outputs for ever. -/
def Obligations.IgnoredReadingBusIsUnobservable : Prop :=
  ∀ (k : Nat) (s : State) (rd : Bus), s.accepting = true → s.standing = none →
    decode s.pins.cmdWord ≠ .command .bin → decode s.pins.cmdWord ≠ .command .trkv →
    outputsAfter k (s.withOfferedBus rd) = outputsAfter k s

/-- R210: a command other than a legal TRKA completes at the LAT_EXEC-th edge after its acceptance edge, with the effect
its family rule gives it at the command level, and has no effect and no response before. -/
def Obligations.CommandCompletesAfterLatency : Prop :=
  ∀ s : State, s.Inv → s.accepting = true → s.standing = none → decode s.pins.cmdWord ≠ .command .trka →
    hostQuiet s.params.latExec s.inputs.tail →
    (∃ t, reaches (s.params.latExec + 1) s t ∧ t.busy = false ∧
      (t.view, t.response) = s.view.accept s.params.width s.pins.cmdWord s.pins.cmdRd) ∧
    ∀ j, 1 ≤ j → j ≤ s.params.latExec →
      ∃ u, reaches j s u ∧ u.busy = true ∧ u.response = none ∧ u.lastPos = s.lastPos

/-- R210 for TRKA: it completes at the LAT_EXEC-th edge after the edge that samples its answer, with the effect R145 and
R146 give that answer, and has no effect and no response before. -/
def Obligations.TrkaCompletesAfterAnswer : Prop :=
  ∀ s : State, s.Inv → s.seq = .waitAcq → s.pins.acqDone = true → hostQuiet (s.params.latExec + 1) s.inputs →
    (∃ t, reaches (s.params.latExec + 1) s t ∧ t.busy = false ∧
      (t.view, t.response) =
        s.view.answer s.params.width (if s.pins.acqErr = true then .transportError else .data s.pins.acqRd)) ∧
    ∀ j, 1 ≤ j → j ≤ s.params.latExec →
      ∃ u, reaches j s u ∧ u.busy = true ∧ u.response = none ∧ u.lastPos = s.lastPos

/-! The assembler. -/

/-- The assembler refuses a vector of other than 8 readings or with a reading outside `0..2^W - 1`, and a pattern outside
0..255, on every line that takes one (R83, R173). -/
def Obligations.AssemblerRefusesMalformedOperands : Prop :=
  ∀ w : Nat,
    (∀ codes : List Nat, WellFormed.vectorOk w codes = false →
      (∀ l ∈ [Line.bin codes, .trkv codes, .trackVector codes], ∃ e, assemble w l = .error e) ∧
        ∀ word : Nat, ∃ e, assemble w (.cmdWith word codes) = .error e) ∧
    ∀ p : Nat, 255 < p → ∀ l ∈ [Line.lut p, .trkp p, .trackPattern p], ∃ e, assemble w l = .error e

/-- What the assembler makes of well-formed operands reaches the LC as the command written, with the vector written
(R83). -/
def Obligations.AssembledCommandIsTheOneWritten : Prop :=
  ∀ w : Nat, WellFormed.widthOk w = true →
    (∀ codes : List Nat, WellFormed.vectorOk w codes = true →
      (∃ o, assemble w (.bin codes) = .move (.offer o) ∧ o.word = 0x0000 ∧ decode o.word = .command .bin ∧
        readings w o.rd = vectorOfList codes) ∧
      (∃ o, assemble w (.trkv codes) = .move (.offer o) ∧ o.word = 0x0300 ∧ decode o.word = .command .trkv ∧
        readings w o.rd = vectorOfList codes)) ∧
    (∀ p : Byte,
      (∃ o, assemble w (.lut p.toNat) = .move (.offer o) ∧ decode o.word = .command (.lut p) ∧ o.rd = 0) ∧
      (∃ o, assemble w (.trkp p.toNat) = .move (.offer o) ∧ decode o.word = .command (.trkp p) ∧ o.rd = 0)) ∧
    ∃ o, assemble w .trka = .move (.offer o) ∧ o.word = 0x0400 ∧ decode o.word = .command .trka ∧ o.rd = 0

/-- The line RESET is no command: it asserts `rst` for at least one rising edge (R85), and after those edges the LC is in the
reset state (R201), whatever it was doing, with the rest of the port values to come. Two clauses are the model's choice:
that the cycles number `hold + 1`, the caller's count (log 21), and that no offer stands after them (log 13). -/
def Obligations.ResetLineGivesTheStartState : Prop :=
  ∀ (w hold : Nat) (s : State) (cs rest : List Pins), lineCycles w hold .reset = some cs → s.inputs = cs ++ rest →
    1 ≤ cs.length ∧ cs.length = hold + 1 ∧ (∀ q ∈ cs, q.rst = true ∧ q.cmdValid = false) ∧
    ∃ t, reaches cs.length s t ∧ t.inputs = rest ∧ t.standing = none ∧ t.params = s.params ∧ t.lastPos = 0x00 ∧
      t.seq = .idle ∧ t.rspStatus = 0b00 ∧ t.rspPat = 0x00 ∧ t.rspPos = 0x80 ∧ t.rspValid = false

/-- R84: TRACK with no operand, a vector or a pattern assembles to TRKA, TRKV or TRKP. -/
def Obligations.TrackExpandsToTrackingCommands : Prop :=
  ∀ (w : Nat) (rd : List Nat) (p : Nat),
    assemble w .track = assemble w .trka ∧ assemble w (.trackVector rd) = assemble w (.trkv rd) ∧
      assemble w (.trackPattern p) = assemble w (.trkp p)
end

