-- ==== Sys2Proof/Laws/Assembler.lean ====
section
/-! SUPPORT. What the cycles of the host's moves are. -/

namespace Sys2Proof.Machine

@[simp] theorem HostMove.cycles_length (hold : Nat) (m : HostMove) : (m.cycles hold).length = hold + 1 := by
  simp [HostMove.cycles]

/-- Every cycle of a move shows the same ports. -/
theorem HostMove.eq_pins_of_mem_cycles {hold : Nat} {m : HostMove} {q : Pins} (h : q ∈ m.cycles hold) : q = m.pins :=
  List.eq_of_mem_replicate h

/-- A move held one edge longer begins with one cycle more. -/
theorem HostMove.cycles_succ (hold : Nat) (m : HostMove) : m.cycles (hold + 1) = m.pins :: m.cycles hold := rfl

@[simp] theorem lineCycles_reset (w hold : Nat) :
    lineCycles w hold .reset = some (HostMove.assertReset.cycles hold) := rfl

/-- A timed line has cycles exactly if its line has, and they are the wait and then the line's own. -/
theorem timedCycles_eq_some {w : Nat} {l : TimedLine} {cs : List Pins} :
    timedCycles w l = some cs ↔
      ∃ c, lineCycles w l.hold l.line = some c ∧ cs = List.replicate l.wait Pins.quiet ++ c := by
  simp [timedCycles, eq_comm]

/-- A program's cycles are those of its first line and then those of the rest. -/
theorem programCycles_cons_eq_some {w : Nat} {l : TimedLine} {ls : List TimedLine} {cs : List Pins} :
    programCycles w (l :: ls) = some cs ↔
      ∃ a b, timedCycles w l = some a ∧ programCycles w ls = some b ∧ cs = a ++ b := by
  rw [programCycles]
  cases timedCycles w l <;> cases programCycles w ls <;> simp [eq_comm]

end Sys2Proof.Machine
end

