-- ==== Sys2Proof/Laws/Binarizer.lean ====
section
/-! SUPPORT. What the pieces of the binarizer are: the extremes and the packing of bits. -/

namespace Sys2Proof.Machine

/-- Channel `i`'s bit lands on bit `7 - i`. -/
theorem packPattern_getLsbD (d : Fin 8 → Bool) (i : Fin 8) : (packPattern d).getLsbD (7 - i.val) = d i := by
  have key : ∀ b0 b1 b2 b3 b4 b5 b6 b7 : Bool,
      ∀ i : Fin 8, (packPattern ![b0, b1, b2, b3, b4, b5, b6, b7]).getLsbD (7 - i.val)
        = ![b0, b1, b2, b3, b4, b5, b6, b7] i := by decide
  have hd : d = ![d 0, d 1, d 2, d 3, d 4, d 5, d 6, d 7] := by
    funext j; fin_cases j <;> rfl
  rw [hd]
  exact key _ _ _ _ _ _ _ _ i

/-- Two patterns are equal if their bits are, channel by channel. -/
theorem pattern_ext {p q : Byte} (h : ∀ i : Fin 8, p.getLsbD (7 - i.val) = q.getLsbD (7 - i.val)) : p = q := by
  apply BitVec.eq_of_getLsbD_eq
  intro j hj
  have := h ⟨7 - j, by omega⟩
  simpa [show 7 - (7 - j) = j by omega] using this

/-! Folding `min` and `max` over channels, for codes and for rational readings alike. -/

section
variable {α : Type} [LinearOrder α] (f : Fin 8 → α)

theorem foldl_min_le (l : List (Fin 8)) (m : α) :
    l.foldl (fun m i => min m (f i)) m ≤ m ∧ ∀ i ∈ l, l.foldl (fun m i => min m (f i)) m ≤ f i := by
  induction l generalizing m with
  | nil => simp
  | cons j l ih =>
    obtain ⟨h0, h1⟩ := ih (min m (f j))
    refine ⟨h0.trans (min_le_left _ _), fun i hi => ?_⟩
    rcases List.mem_cons.mp hi with rfl | hi
    · exact h0.trans (min_le_right _ _)
    · exact h1 i hi

theorem foldl_min_mem (l : List (Fin 8)) (m : α) :
    l.foldl (fun m i => min m (f i)) m = m ∨ ∃ i, f i = l.foldl (fun m i => min m (f i)) m := by
  induction l generalizing m with
  | nil => simp
  | cons j l ih =>
    rcases ih (min m (f j)) with h | h
    · rcases min_choice m (f j) with hm | hm
      · exact .inl (h.trans hm)
      · exact .inr ⟨j, hm.symm.trans h.symm⟩
    · exact .inr h

theorem le_foldl_max (l : List (Fin 8)) (m : α) :
    m ≤ l.foldl (fun m i => max m (f i)) m ∧ ∀ i ∈ l, f i ≤ l.foldl (fun m i => max m (f i)) m := by
  induction l generalizing m with
  | nil => simp
  | cons j l ih =>
    obtain ⟨h0, h1⟩ := ih (max m (f j))
    refine ⟨(le_max_left _ _).trans h0, fun i hi => ?_⟩
    rcases List.mem_cons.mp hi with rfl | hi
    · exact (le_max_right _ _).trans h0
    · exact h1 i hi

theorem foldl_max_mem (l : List (Fin 8)) (m : α) :
    l.foldl (fun m i => max m (f i)) m = m ∨ ∃ i, f i = l.foldl (fun m i => max m (f i)) m := by
  induction l generalizing m with
  | nil => simp
  | cons j l ih =>
    rcases ih (max m (f j)) with h | h
    · rcases max_choice m (f j) with hm | hm
      · exact .inl (h.trans hm)
      · exact .inr ⟨j, hm.symm.trans h.symm⟩
    · exact .inr h

end

theorem lowest_le (rd : Readings) (i : Fin 8) : lowest rd ≤ rd i := (foldl_min_le rd _ _).2 i (List.mem_finRange i)

theorem le_highest (rd : Readings) (i : Fin 8) : rd i ≤ highest rd := (le_foldl_max rd _ _).2 i (List.mem_finRange i)

theorem exists_lowest (rd : Readings) : ∃ i, rd i = lowest rd :=
  (foldl_min_mem rd (List.finRange 8) (rd 0)).elim (fun h => ⟨0, h.symm⟩) id

theorem exists_highest (rd : Readings) : ∃ i, rd i = highest rd :=
  (foldl_max_mem rd (List.finRange 8) (rd 0)).elim (fun h => ⟨0, h.symm⟩) id

theorem lowestQ_le (r : Fin 8 → ℚ) (i : Fin 8) : lowestQ r ≤ r i := (foldl_min_le r _ _).2 i (List.mem_finRange i)

theorem le_highestQ (r : Fin 8 → ℚ) (i : Fin 8) : r i ≤ highestQ r := (le_foldl_max r _ _).2 i (List.mem_finRange i)

theorem exists_lowestQ (r : Fin 8 → ℚ) : ∃ i, r i = lowestQ r :=
  (foldl_min_mem r (List.finRange 8) (r 0)).elim (fun h => ⟨0, h.symm⟩) id

theorem exists_highestQ (r : Fin 8 → ℚ) : ∃ i, r i = highestQ r :=
  (foldl_max_mem r (List.finRange 8) (r 0)).elim (fun h => ⟨0, h.symm⟩) id

end Sys2Proof.Machine
end

