-- ==== Sys2Proof/Laws/Operands.lean ====
section
/-! SUPPORT. What the operand forms give. -/

namespace Sys2Proof.Machine

@[simp] theorem position_undef : position undef = none := rfl

/-- The position of a code that is worth `n` eighths. -/
theorem position_of_sext8 {c : Byte} {n : Int} (h : c ≠ undef) (hn : sext8 c = n) : position c = some ((n : ℚ) / 8) := by
  rw [position, if_neg h, hn]

end Sys2Proof.Machine
end

