-- ==== Sys2Proof/Laws/State.lean ====
section
/-! SUPPORT. One lemma per field and per register transfer of the state, so that no proof unfolds a record update. -/

namespace Sys2Proof.Machine

variable (s : State)

/-! The fields after `State.writeLast`. -/

@[simp] theorem State.writeLast_lastPos (v : Byte) : (s.writeLast v).lastPos = v := rfl
@[simp] theorem State.writeLast_seq (v : Byte) : (s.writeLast v).seq = s.seq := rfl
@[simp] theorem State.writeLast_cnt (v : Byte) : (s.writeLast v).cnt = s.cnt := rfl
@[simp] theorem State.writeLast_capWord (v : Byte) : (s.writeLast v).capWord = s.capWord := rfl
@[simp] theorem State.writeLast_capRd (v : Byte) : (s.writeLast v).capRd = s.capRd := rfl
@[simp] theorem State.writeLast_capErr (v : Byte) : (s.writeLast v).capErr = s.capErr := rfl
@[simp] theorem State.writeLast_rspStatus (v : Byte) : (s.writeLast v).rspStatus = s.rspStatus := rfl
@[simp] theorem State.writeLast_rspPat (v : Byte) : (s.writeLast v).rspPat = s.rspPat := rfl
@[simp] theorem State.writeLast_rspPos (v : Byte) : (s.writeLast v).rspPos = s.rspPos := rfl
@[simp] theorem State.writeLast_rspValid (v : Byte) : (s.writeLast v).rspValid = s.rspValid := rfl
@[simp] theorem State.writeLast_params (v : Byte) : (s.writeLast v).params = s.params := rfl
@[simp] theorem State.writeLast_inputs (v : Byte) : (s.writeLast v).inputs = s.inputs := rfl
@[simp] theorem State.writeLast_standing (v : Byte) : (s.writeLast v).standing = s.standing := rfl
@[simp] theorem State.writeLast_freeCount (v : Byte) : (s.writeLast v).freeCount = s.freeCount := rfl
@[simp] theorem State.writeLast_pins (v : Byte) : (s.writeLast v).pins = s.pins := rfl

/-! The fields after `State.respond`. -/

@[simp] theorem State.respond_lastPos (st : Status) (a b : Byte) : (s.respond st a b).lastPos = s.lastPos := rfl
@[simp] theorem State.respond_seq (st : Status) (a b : Byte) : (s.respond st a b).seq = s.seq := rfl
@[simp] theorem State.respond_cnt (st : Status) (a b : Byte) : (s.respond st a b).cnt = s.cnt := rfl
@[simp] theorem State.respond_capWord (st : Status) (a b : Byte) : (s.respond st a b).capWord = s.capWord := rfl
@[simp] theorem State.respond_capRd (st : Status) (a b : Byte) : (s.respond st a b).capRd = s.capRd := rfl
@[simp] theorem State.respond_capErr (st : Status) (a b : Byte) : (s.respond st a b).capErr = s.capErr := rfl
@[simp] theorem State.respond_rspStatus (st : Status) (a b : Byte) : (s.respond st a b).rspStatus = statusCode st := rfl
@[simp] theorem State.respond_rspPat (st : Status) (a b : Byte) : (s.respond st a b).rspPat = a := rfl
@[simp] theorem State.respond_rspPos (st : Status) (a b : Byte) : (s.respond st a b).rspPos = b := rfl
@[simp] theorem State.respond_rspValid (st : Status) (a b : Byte) : (s.respond st a b).rspValid = true := rfl
@[simp] theorem State.respond_params (st : Status) (a b : Byte) : (s.respond st a b).params = s.params := rfl
@[simp] theorem State.respond_inputs (st : Status) (a b : Byte) : (s.respond st a b).inputs = s.inputs := rfl
@[simp] theorem State.respond_standing (st : Status) (a b : Byte) : (s.respond st a b).standing = s.standing := rfl
@[simp] theorem State.respond_freeCount (st : Status) (a b : Byte) : (s.respond st a b).freeCount = s.freeCount := rfl
@[simp] theorem State.respond_pins (st : Status) (a b : Byte) : (s.respond st a b).pins = s.pins := rfl

/-! The fields after `State.dropStrobe`. -/

@[simp] theorem State.dropStrobe_lastPos : s.dropStrobe.lastPos = s.lastPos := rfl
@[simp] theorem State.dropStrobe_seq : s.dropStrobe.seq = s.seq := rfl
@[simp] theorem State.dropStrobe_cnt : s.dropStrobe.cnt = s.cnt := rfl
@[simp] theorem State.dropStrobe_capWord : s.dropStrobe.capWord = s.capWord := rfl
@[simp] theorem State.dropStrobe_capRd : s.dropStrobe.capRd = s.capRd := rfl
@[simp] theorem State.dropStrobe_capErr : s.dropStrobe.capErr = s.capErr := rfl
@[simp] theorem State.dropStrobe_rspStatus : s.dropStrobe.rspStatus = s.rspStatus := rfl
@[simp] theorem State.dropStrobe_rspPat : s.dropStrobe.rspPat = s.rspPat := rfl
@[simp] theorem State.dropStrobe_rspPos : s.dropStrobe.rspPos = s.rspPos := rfl
@[simp] theorem State.dropStrobe_rspValid : s.dropStrobe.rspValid = false := rfl
@[simp] theorem State.dropStrobe_params : s.dropStrobe.params = s.params := rfl
@[simp] theorem State.dropStrobe_inputs : s.dropStrobe.inputs = s.inputs := rfl
@[simp] theorem State.dropStrobe_standing : s.dropStrobe.standing = s.standing := rfl
@[simp] theorem State.dropStrobe_freeCount : s.dropStrobe.freeCount = s.freeCount := rfl
@[simp] theorem State.dropStrobe_pins : s.dropStrobe.pins = s.pins := rfl

/-! The fields after `State.goIdle`. -/

@[simp] theorem State.goIdle_lastPos : s.goIdle.lastPos = s.lastPos := rfl
@[simp] theorem State.goIdle_seq : s.goIdle.seq = .idle := rfl
@[simp] theorem State.goIdle_cnt : s.goIdle.cnt = s.cnt := rfl
@[simp] theorem State.goIdle_capWord : s.goIdle.capWord = s.capWord := rfl
@[simp] theorem State.goIdle_capRd : s.goIdle.capRd = s.capRd := rfl
@[simp] theorem State.goIdle_capErr : s.goIdle.capErr = s.capErr := rfl
@[simp] theorem State.goIdle_rspStatus : s.goIdle.rspStatus = s.rspStatus := rfl
@[simp] theorem State.goIdle_rspPat : s.goIdle.rspPat = s.rspPat := rfl
@[simp] theorem State.goIdle_rspPos : s.goIdle.rspPos = s.rspPos := rfl
@[simp] theorem State.goIdle_rspValid : s.goIdle.rspValid = s.rspValid := rfl
@[simp] theorem State.goIdle_params : s.goIdle.params = s.params := rfl
@[simp] theorem State.goIdle_inputs : s.goIdle.inputs = s.inputs := rfl
@[simp] theorem State.goIdle_standing : s.goIdle.standing = s.standing := rfl
@[simp] theorem State.goIdle_freeCount : s.goIdle.freeCount = s.freeCount := rfl
@[simp] theorem State.goIdle_pins : s.goIdle.pins = s.pins := rfl

/-! The fields after `State.goWait`. -/

@[simp] theorem State.goWait_lastPos : s.goWait.lastPos = s.lastPos := rfl
@[simp] theorem State.goWait_seq : s.goWait.seq = .waitAcq := rfl
@[simp] theorem State.goWait_cnt : s.goWait.cnt = s.cnt := rfl
@[simp] theorem State.goWait_capWord : s.goWait.capWord = s.capWord := rfl
@[simp] theorem State.goWait_capRd : s.goWait.capRd = s.capRd := rfl
@[simp] theorem State.goWait_capErr : s.goWait.capErr = s.capErr := rfl
@[simp] theorem State.goWait_rspStatus : s.goWait.rspStatus = s.rspStatus := rfl
@[simp] theorem State.goWait_rspPat : s.goWait.rspPat = s.rspPat := rfl
@[simp] theorem State.goWait_rspPos : s.goWait.rspPos = s.rspPos := rfl
@[simp] theorem State.goWait_rspValid : s.goWait.rspValid = s.rspValid := rfl
@[simp] theorem State.goWait_params : s.goWait.params = s.params := rfl
@[simp] theorem State.goWait_inputs : s.goWait.inputs = s.inputs := rfl
@[simp] theorem State.goWait_standing : s.goWait.standing = s.standing := rfl
@[simp] theorem State.goWait_freeCount : s.goWait.freeCount = s.freeCount := rfl
@[simp] theorem State.goWait_pins : s.goWait.pins = s.pins := rfl

/-! The fields after `State.startExec`. -/

@[simp] theorem State.startExec_lastPos : s.startExec.lastPos = s.lastPos := rfl
@[simp] theorem State.startExec_seq : s.startExec.seq = .exec := rfl
@[simp] theorem State.startExec_cnt : s.startExec.cnt = s.params.latExec := rfl
@[simp] theorem State.startExec_capWord : s.startExec.capWord = s.capWord := rfl
@[simp] theorem State.startExec_capRd : s.startExec.capRd = s.capRd := rfl
@[simp] theorem State.startExec_capErr : s.startExec.capErr = s.capErr := rfl
@[simp] theorem State.startExec_rspStatus : s.startExec.rspStatus = s.rspStatus := rfl
@[simp] theorem State.startExec_rspPat : s.startExec.rspPat = s.rspPat := rfl
@[simp] theorem State.startExec_rspPos : s.startExec.rspPos = s.rspPos := rfl
@[simp] theorem State.startExec_rspValid : s.startExec.rspValid = s.rspValid := rfl
@[simp] theorem State.startExec_params : s.startExec.params = s.params := rfl
@[simp] theorem State.startExec_inputs : s.startExec.inputs = s.inputs := rfl
@[simp] theorem State.startExec_standing : s.startExec.standing = s.standing := rfl
@[simp] theorem State.startExec_freeCount : s.startExec.freeCount = s.freeCount := rfl
@[simp] theorem State.startExec_pins : s.startExec.pins = s.pins := rfl

/-! The fields after `State.setCount`. -/

@[simp] theorem State.setCount_lastPos (n : Nat) : (s.setCount n).lastPos = s.lastPos := rfl
@[simp] theorem State.setCount_seq (n : Nat) : (s.setCount n).seq = s.seq := rfl
@[simp] theorem State.setCount_cnt (n : Nat) : (s.setCount n).cnt = n := rfl
@[simp] theorem State.setCount_capWord (n : Nat) : (s.setCount n).capWord = s.capWord := rfl
@[simp] theorem State.setCount_capRd (n : Nat) : (s.setCount n).capRd = s.capRd := rfl
@[simp] theorem State.setCount_capErr (n : Nat) : (s.setCount n).capErr = s.capErr := rfl
@[simp] theorem State.setCount_rspStatus (n : Nat) : (s.setCount n).rspStatus = s.rspStatus := rfl
@[simp] theorem State.setCount_rspPat (n : Nat) : (s.setCount n).rspPat = s.rspPat := rfl
@[simp] theorem State.setCount_rspPos (n : Nat) : (s.setCount n).rspPos = s.rspPos := rfl
@[simp] theorem State.setCount_rspValid (n : Nat) : (s.setCount n).rspValid = s.rspValid := rfl
@[simp] theorem State.setCount_params (n : Nat) : (s.setCount n).params = s.params := rfl
@[simp] theorem State.setCount_inputs (n : Nat) : (s.setCount n).inputs = s.inputs := rfl
@[simp] theorem State.setCount_standing (n : Nat) : (s.setCount n).standing = s.standing := rfl
@[simp] theorem State.setCount_freeCount (n : Nat) : (s.setCount n).freeCount = s.freeCount := rfl
@[simp] theorem State.setCount_pins (n : Nat) : (s.setCount n).pins = s.pins := rfl

/-! The fields after `State.captureCommand`. -/

@[simp] theorem State.captureCommand_lastPos : s.captureCommand.lastPos = s.lastPos := rfl
@[simp] theorem State.captureCommand_seq : s.captureCommand.seq = s.seq := rfl
@[simp] theorem State.captureCommand_cnt : s.captureCommand.cnt = s.cnt := rfl
@[simp] theorem State.captureCommand_capWord : s.captureCommand.capWord = s.pins.cmdWord := rfl
@[simp] theorem State.captureCommand_capRd : s.captureCommand.capRd = s.pins.cmdRd := rfl
@[simp] theorem State.captureCommand_capErr : s.captureCommand.capErr = s.capErr := rfl
@[simp] theorem State.captureCommand_rspStatus : s.captureCommand.rspStatus = s.rspStatus := rfl
@[simp] theorem State.captureCommand_rspPat : s.captureCommand.rspPat = s.rspPat := rfl
@[simp] theorem State.captureCommand_rspPos : s.captureCommand.rspPos = s.rspPos := rfl
@[simp] theorem State.captureCommand_rspValid : s.captureCommand.rspValid = s.rspValid := rfl
@[simp] theorem State.captureCommand_params : s.captureCommand.params = s.params := rfl
@[simp] theorem State.captureCommand_inputs : s.captureCommand.inputs = s.inputs := rfl
@[simp] theorem State.captureCommand_standing : s.captureCommand.standing = s.standing := rfl
@[simp] theorem State.captureCommand_freeCount : s.captureCommand.freeCount = s.freeCount := rfl
@[simp] theorem State.captureCommand_pins : s.captureCommand.pins = s.pins := rfl

/-! The fields after `State.captureAnswer`. -/

@[simp] theorem State.captureAnswer_lastPos : s.captureAnswer.lastPos = s.lastPos := rfl
@[simp] theorem State.captureAnswer_seq : s.captureAnswer.seq = s.seq := rfl
@[simp] theorem State.captureAnswer_cnt : s.captureAnswer.cnt = s.cnt := rfl
@[simp] theorem State.captureAnswer_capWord : s.captureAnswer.capWord = s.capWord := rfl
@[simp] theorem State.captureAnswer_capRd : s.captureAnswer.capRd = if s.pins.acqErr then s.capRd else s.pins.acqRd := rfl
@[simp] theorem State.captureAnswer_capErr : s.captureAnswer.capErr = s.pins.acqErr := rfl
@[simp] theorem State.captureAnswer_rspStatus : s.captureAnswer.rspStatus = s.rspStatus := rfl
@[simp] theorem State.captureAnswer_rspPat : s.captureAnswer.rspPat = s.rspPat := rfl
@[simp] theorem State.captureAnswer_rspPos : s.captureAnswer.rspPos = s.rspPos := rfl
@[simp] theorem State.captureAnswer_rspValid : s.captureAnswer.rspValid = s.rspValid := rfl
@[simp] theorem State.captureAnswer_params : s.captureAnswer.params = s.params := rfl
@[simp] theorem State.captureAnswer_inputs : s.captureAnswer.inputs = s.inputs := rfl
@[simp] theorem State.captureAnswer_standing : s.captureAnswer.standing = s.standing := rfl
@[simp] theorem State.captureAnswer_freeCount : s.captureAnswer.freeCount = s.freeCount := rfl
@[simp] theorem State.captureAnswer_pins : s.captureAnswer.pins = s.pins := rfl

/-! The fields after `State.resetEdge`. -/

@[simp] theorem State.resetEdge_lastPos : s.resetEdge.lastPos = 0x00 := rfl
@[simp] theorem State.resetEdge_seq : s.resetEdge.seq = .idle := rfl
@[simp] theorem State.resetEdge_cnt : s.resetEdge.cnt = Config.freeCnt s.freeCount := rfl
@[simp] theorem State.resetEdge_capWord : s.resetEdge.capWord = Config.freeCapWord s.freeCount := rfl
@[simp] theorem State.resetEdge_capRd : s.resetEdge.capRd = busClip s.params.width (Config.freeCapRd s.freeCount) := rfl
@[simp] theorem State.resetEdge_capErr : s.resetEdge.capErr = Config.freeCapErr s.freeCount := rfl
@[simp] theorem State.resetEdge_rspStatus : s.resetEdge.rspStatus = 0b00 := rfl
@[simp] theorem State.resetEdge_rspPat : s.resetEdge.rspPat = 0x00 := rfl
@[simp] theorem State.resetEdge_rspPos : s.resetEdge.rspPos = 0x80 := rfl
@[simp] theorem State.resetEdge_rspValid : s.resetEdge.rspValid = false := rfl
@[simp] theorem State.resetEdge_params : s.resetEdge.params = s.params := rfl
@[simp] theorem State.resetEdge_inputs : s.resetEdge.inputs = s.inputs := rfl
@[simp] theorem State.resetEdge_standing : s.resetEdge.standing = s.standing := rfl
@[simp] theorem State.resetEdge_freeCount : s.resetEdge.freeCount = s.freeCount + 1 := rfl
@[simp] theorem State.resetEdge_pins : s.resetEdge.pins = s.pins := rfl

/-! The fields after `State.tickFrom`. -/

@[simp] theorem State.tickFrom_lastPos (u : State) : (s.tickFrom u).lastPos = s.lastPos := rfl
@[simp] theorem State.tickFrom_seq (u : State) : (s.tickFrom u).seq = s.seq := rfl
@[simp] theorem State.tickFrom_cnt (u : State) : (s.tickFrom u).cnt = s.cnt := rfl
@[simp] theorem State.tickFrom_capWord (u : State) : (s.tickFrom u).capWord = s.capWord := rfl
@[simp] theorem State.tickFrom_capRd (u : State) : (s.tickFrom u).capRd = s.capRd := rfl
@[simp] theorem State.tickFrom_capErr (u : State) : (s.tickFrom u).capErr = s.capErr := rfl
@[simp] theorem State.tickFrom_rspStatus (u : State) : (s.tickFrom u).rspStatus = s.rspStatus := rfl
@[simp] theorem State.tickFrom_rspPat (u : State) : (s.tickFrom u).rspPat = s.rspPat := rfl
@[simp] theorem State.tickFrom_rspPos (u : State) : (s.tickFrom u).rspPos = s.rspPos := rfl
@[simp] theorem State.tickFrom_rspValid (u : State) : (s.tickFrom u).rspValid = s.rspValid := rfl
@[simp] theorem State.tickFrom_params (u : State) : (s.tickFrom u).params = s.params := rfl
@[simp] theorem State.tickFrom_inputs (u : State) : (s.tickFrom u).inputs = u.inputs.tail := rfl
@[simp] theorem State.tickFrom_standing (u : State) : (s.tickFrom u).standing = u.standingAfter := rfl
@[simp] theorem State.tickFrom_freeCount (u : State) : (s.tickFrom u).freeCount = s.freeCount := rfl

end Sys2Proof.Machine
end

