-- ==== Sys2Proof/Laws/Ops.lean ====
section
/-! SUPPORT. For each shared operation, once, everything it can do. -/

namespace Sys2Proof.Machine

/-! The ports and the bus. -/

theorem State.pins_nil {s : State} (h : s.inputs = []) : s.pins.rst = false ∧ s.pins.cmdValid = false := by
  simp [State.pins, h, Pins.quiet]

theorem State.pins_cons {s : State} {p : Pins} {ps : List Pins} (h : s.inputs = p :: ps) :
    s.pins = { p with cmdRd := busClip s.params.width p.cmdRd, acqRd := busClip s.params.width p.acqRd } := by
  simp [State.pins, h]

theorem busClip_toNat_lt (w : Nat) (b : Bus) : (busClip w b).toNat < 2 ^ (8 * w) := by
  have h := Nat.mod_lt b.toNat (Nat.two_pow_pos (8 * w))
  simp only [busClip, BitVec.toNat_ofNat]
  exact lt_of_le_of_lt (Nat.mod_le _ _) h

theorem busOk_busClip (w : Nat) (b : Bus) : WellFormed.busOk w (busClip w b) = true := by
  simp [WellFormed.busOk, busClip_toNat_lt]

/-! Resolution. -/

@[simp] theorem State.resolve_fst (s : State) (p : Byte) : (s.resolve p).1 = resolvedCode s.lastPos p := rfl

@[simp] theorem State.resolve_snd (s : State) (p : Byte) :
    (s.resolve p).2 = s.writeLast (resolvedCode s.lastPos p) := rfl

theorem resolvedCode_of_undef {last p : Byte} (h : lookupPattern p = undef) : resolvedCode last p = last := by
  simp [resolvedCode, h]

theorem resolvedCode_of_defined {last p : Byte} (h : lookupPattern p ≠ undef) :
    resolvedCode last p = lookupPattern p := by
  simp [resolvedCode, h]

theorem State.trackPattern_eq (s : State) (p : Byte) :
    s.trackPattern p = (s.writeLast (resolvedCode s.lastPos p)).respond .ok p (resolvedCode s.lastPos p) := rfl

/-! The sequencer. -/

/-- All that an edge with `rst = 0` can do for a command: accept it, wait, complete it, or count. -/
theorem serve_cases {a : Bool} {rule : State → State} {s t : State} (h : serve a rule s = .next t) :
    (s.seq = .idle ∧ t = s.acceptEdge a) ∨ (s.seq = .waitAcq ∧ t = s.awaitEdge) ∨
      (s.seq = .exec ∧ s.cnt = 1 ∧ t = (rule s).goIdle) ∨ (s.seq = .exec ∧ 1 < s.cnt ∧ t = s.countEdge) := by
  unfold serve at h
  split at h
  · next hs => exact .inl ⟨hs, by injection h with h; exact h.symm⟩
  · next hs => exact .inr (.inl ⟨hs, by injection h with h; exact h.symm⟩)
  · next hs =>
    split at h
    · cases h
    · next hc => exact .inr (.inr (.inl ⟨hs, hc, by injection h with h; exact h.symm⟩))
    · next h0 h1 =>
      have h0 : s.cnt ≠ 0 := h0
      have h1 : s.cnt ≠ 1 := h1
      exact .inr (.inr (.inr ⟨hs, by omega, by injection h with h; exact h.symm⟩))

/-- The sequencer stops only in EXEC with CNT = 0. -/
theorem serve_next_of_count {a : Bool} {rule : State → State} {s : State} (h : s.seq = .exec → 1 ≤ s.cnt) :
    ∃ t, serve a rule s = .next t := by
  unfold serve
  split
  · exact ⟨_, rfl⟩
  · exact ⟨_, rfl⟩
  · next hs =>
    have := h hs
    split
    · omega
    · exact ⟨_, rfl⟩
    · exact ⟨_, rfl⟩

theorem serve_complete {a : Bool} {rule : State → State} {s : State} (hs : s.seq = .exec) (hc : s.cnt = 1) :
    serve a rule s = .next (rule s).goIdle := by
  simp [serve, hs, hc]

theorem serve_idle {a : Bool} {rule : State → State} {s : State} (hs : s.seq = .idle) :
    serve a rule s = .next (s.acceptEdge a) := by
  simp [serve, hs]

theorem serve_wait {a : Bool} {rule : State → State} {s : State} (hs : s.seq = .waitAcq) :
    serve a rule s = .next s.awaitEdge := by
  simp [serve, hs]

theorem serve_count {a : Bool} {rule : State → State} {s : State} (hs : s.seq = .exec) (hc : 1 < s.cnt) :
    serve a rule s = .next s.countEdge := by
  simp only [serve, hs]
  split
  · omega
  · omega
  · rfl

end Sys2Proof.Machine
end

