-- ==== Sys2Proof/Laws/PerInstr.lean ====
section
/-! SUPPORT. Statements about every command as a term, one lemma per constructor of Instr. -/

namespace Sys2Proof

/-! The fields of a packed word (R70). -/

theorem fieldRsvd_packWord (op : BitVec 3) (p : Byte) : fieldRsvd (packWord op p) = 0 := by
  apply BitVec.eq_of_getLsbD_eq
  intro i hi
  simp [fieldRsvd, packWord, show i < 5 from hi, show ¬(11 + i < 8) by omega, show 3 ≤ 11 + i - 8 by omega,
    show 8 ≤ 11 + i by omega]

theorem fieldOp_packWord (op : BitVec 3) (p : Byte) : fieldOp (packWord op p) = op := by
  apply BitVec.eq_of_getLsbD_eq
  intro i hi
  simp [fieldOp, packWord, show i < 3 from hi, show 8 + i < 16 by omega, show 8 + i - 8 = i by omega]

theorem fieldPat_packWord (op : BitVec 3) (p : Byte) : fieldPat (packWord op p) = p := by
  apply BitVec.eq_of_getLsbD_eq
  intro i hi
  simp [fieldPat, packWord, show i < 8 from hi, show i < 16 by omega]

end Sys2Proof

namespace Sys2Proof.Laws

/-- The encoded word lies in the command's row of the opcode map: RSVD is 0 and OP is the row's (R70, R81). -/
def OpcodeRow.Statement (i : Instr) : Prop :=
  fieldRsvd (encode i) = 0 ∧ WellFormed.instrOk i = true ∧
    fieldOp (encode i) =
      match i with
      | .bin => 0
      | .lut _ => 1
      | .trkp _ => 2
      | .trkv => 3
      | .trka => 4

theorem OpcodeRow.bin : OpcodeRow.Statement .bin := by unfold OpcodeRow.Statement; decide

theorem OpcodeRow.lut (p : Byte) : OpcodeRow.Statement (.lut p) :=
  ⟨fieldRsvd_packWord _ _, by simp [WellFormed.instrOk, WellFormed.patternOk, p.isLt], fieldOp_packWord _ _⟩

theorem OpcodeRow.trkp (p : Byte) : OpcodeRow.Statement (.trkp p) :=
  ⟨fieldRsvd_packWord _ _, by simp [WellFormed.instrOk, WellFormed.patternOk, p.isLt], fieldOp_packWord _ _⟩

theorem OpcodeRow.trkv : OpcodeRow.Statement .trkv := by unfold OpcodeRow.Statement; decide

theorem OpcodeRow.trka : OpcodeRow.Statement .trka := by unfold OpcodeRow.Statement; decide

end Sys2Proof.Laws
end

