-- ==== Sys2Proof/Laws/Rom.lean ====
section
/-! SUPPORT. What a lookup can give. -/

namespace Sys2Proof.Machine

/-- Every lookup gives UNDEF or one of the 15 codes of the latch. -/
theorem lookupPattern_cases (p : Byte) : lookupPattern p = undef ∨ lookupPattern p ∈ latchCodes := by
  revert p; decide

theorem undef_not_mem_latchCodes : undef ∉ latchCodes := by decide

end Sys2Proof.Machine
end

