-- ==== Sys2Proof/Laws/Run.lean ====
section
/-! SUPPORT. Runs of the machine, one step at a time, in terms of `step` and `State` alone. -/

namespace Sys2Proof.Machine

/-! Any machine: a run of one more step, by the outcome of its first. -/

theorem run_succ_next {M : Host.Core} {k : Nat} {s u : M.State} (h : M.step s = .next u) :
    M.run (k + 1) s = M.run k u := by
  simp only [Host.Core.run, h]

theorem run_succ_fault {M : Host.Core} {k : Nat} {s : M.State} {r : M.Fault} (h : M.step s = .fault r) :
    M.run (k + 1) s = .fault r := by
  simp only [Host.Core.run, h]

theorem run_succ_refused {M : Host.Core} {k : Nat} {s : M.State} {r : M.Refusal} (h : M.step s = .refused r) :
    M.run (k + 1) s = .refused r := by
  simp only [Host.Core.run, h]

/-! The LC. -/

theorem reaches_zero {s t : State} : reaches 0 s t ↔ t = s := by
  constructor
  · intro h
    injection (h : Host.Outcome.next s = Host.Outcome.next t) with h
    exact h.symm
  · rintro rfl
    rfl

/-- A run of `k + 1` steps is a step and then a run of `k`. -/
theorem reaches_succ {k : Nat} {s t : State} : reaches (k + 1) s t ↔ ∃ u, step s = .next u ∧ reaches k u t := by
  constructor
  · intro h
    cases hs : step s with
    | next u => exact ⟨u, rfl, (run_succ_next (M := Sys2Proof.core) hs).symm.trans h⟩
    | fault r => exact nomatch (run_succ_fault (M := Sys2Proof.core) hs).symm.trans h
    | refused r => exact nomatch (run_succ_refused (M := Sys2Proof.core) hs).symm.trans h
  · rintro ⟨u, hs, h⟩
    exact (run_succ_next (M := Sys2Proof.core) hs).trans h

theorem outputsAfter_zero (s : State) : outputsAfter 0 s = some s.outputs := rfl

/-- The outputs after `k + 1` steps are those after `k` steps from the next state. -/
theorem outputsAfter_succ_of_next {k : Nat} {s t : State} (h : step s = .next t) :
    outputsAfter (k + 1) s = outputsAfter k t := by
  unfold outputsAfter
  rw [run_succ_next (M := Sys2Proof.core) h]

/-- Where a step has no next state there are no outputs after it. -/
theorem outputsAfter_succ_of_stop {k : Nat} {s : State} (h : ∀ t, step s ≠ .next t) : outputsAfter (k + 1) s = none := by
  unfold outputsAfter
  cases hs : step s with
  | next t => exact absurd hs (h t)
  | fault r => rw [run_succ_fault (M := Sys2Proof.core) hs]
  | refused r => rw [run_succ_refused (M := Sys2Proof.core) hs]

end Sys2Proof.Machine
end

