-- ==== Sys2Proof/Laws/Step.lean ====
section
/-! SUPPORT. What one rising edge can do, said once. -/

namespace Sys2Proof.Machine

/-- The completion rule of a decoded word. -/
def familyRule : Decoded → State → State
  | .command .bin => binRule
  | .command (.lut p) => lutRule p
  | .command (.trkp p) => trkpRule p
  | .command .trkv => trkvRule
  | .command .trka => trkaRule
  | .illegal _ => illegalRule

/-- Every word is served by the one sequencer, with the rule of its family. -/
theorem serveWord_eq (w : CmdWord) (s : State) :
    serveWord w s = serve (decide (decode w = .command .trka)) (familyRule (decode w)) s := by
  unfold serveWord
  cases h : decode w with
  | illegal e => simp [serveIllegal, familyRule]
  | command i => cases i <;> simp [exec, execBin, execLut, execTrkp, execTrkv, execTrka, familyRule]

/-- Every command is served by the one sequencer: TRKA asks for an acquisition, and the completion is its family's. -/
theorem exec_eq_serve (i : Instr) (s : State) :
    exec i s = serve (decide (i = .trka)) (familyRule (.command i)) s := by
  cases i <;> simp [exec, execBin, execLut, execTrkp, execTrkv, execTrka, familyRule]

/-- A completion writes the latch and the response registers only. -/
theorem familyRule_frame (d : Decoded) (s : State) :
    familyRule d s = { s with
      lastPos := (familyRule d s).lastPos
      rspStatus := (familyRule d s).rspStatus
      rspPat := (familyRule d s).rspPat
      rspPos := (familyRule d s).rspPos
      rspValid := true } := by
  cases d with
  | illegal e => rfl
  | command i =>
    cases i with
    | bin => rfl
    | lut p => rfl
    | trkp p => rfl
    | trkv => rfl
    | trka =>
      simp only [familyRule, trkaRule]
      split
      · rfl
      · rfl

/-- What a completion leaves alone, field by field. -/
theorem familyRule_fields (d : Decoded) (s : State) :
    (familyRule d s).seq = s.seq ∧ (familyRule d s).cnt = s.cnt ∧ (familyRule d s).capWord = s.capWord ∧
      (familyRule d s).capRd = s.capRd ∧ (familyRule d s).capErr = s.capErr ∧ (familyRule d s).params = s.params ∧
      (familyRule d s).inputs = s.inputs ∧ (familyRule d s).standing = s.standing ∧
      (familyRule d s).freeCount = s.freeCount ∧ (familyRule d s).rspValid = true := by
  rw [familyRule_frame]; simp

/-- What an acceptance edge does to each field. -/
theorem acceptEdge_fields (s : State) (a : Bool) :
    (s.acceptEdge a).seq = (if a then .waitAcq else .exec) ∧
      (s.acceptEdge a).cnt = (if a then s.cnt else s.params.latExec) ∧
      (s.acceptEdge a).capWord = s.pins.cmdWord ∧ (s.acceptEdge a).capRd = s.pins.cmdRd ∧
      (s.acceptEdge a).capErr = s.capErr ∧ (s.acceptEdge a).lastPos = s.lastPos ∧
      (s.acceptEdge a).rspStatus = s.rspStatus ∧ (s.acceptEdge a).rspPat = s.rspPat ∧
      (s.acceptEdge a).rspPos = s.rspPos ∧ (s.acceptEdge a).rspValid = false ∧
      (s.acceptEdge a).params = s.params ∧ (s.acceptEdge a).inputs = s.inputs ∧
      (s.acceptEdge a).standing = s.standing ∧ (s.acceptEdge a).freeCount = s.freeCount := by
  cases a <;> simp [State.acceptEdge]

/-- What an edge in WAIT_ACQ leaves alone, and what it does to SEQ and CNT. -/
theorem awaitEdge_fields (s : State) :
    s.awaitEdge.seq = (if s.pins.acqDone then .exec else s.seq) ∧
      s.awaitEdge.cnt = (if s.pins.acqDone then s.params.latExec else s.cnt) ∧
      s.awaitEdge.capErr = (if s.pins.acqDone then s.pins.acqErr else s.capErr) ∧
      s.awaitEdge.capRd = (if s.pins.acqDone && !s.pins.acqErr then s.pins.acqRd else s.capRd) ∧
      s.awaitEdge.capWord = s.capWord ∧ s.awaitEdge.lastPos = s.lastPos ∧
      s.awaitEdge.rspStatus = s.rspStatus ∧ s.awaitEdge.rspPat = s.rspPat ∧ s.awaitEdge.rspPos = s.rspPos ∧
      s.awaitEdge.rspValid = false ∧ s.awaitEdge.params = s.params ∧ s.awaitEdge.inputs = s.inputs ∧
      s.awaitEdge.standing = s.standing ∧ s.awaitEdge.freeCount = s.freeCount := by
  by_cases h : s.pins.acqDone = true
  · by_cases he : s.pins.acqErr = true <;> simp [State.awaitEdge, h, he]
  · simp [State.awaitEdge, h]

/-- All that an edge can do. -/
theorem edge_cases {s t : State} (h : edge s = .next t) :
    (s.pins.rst = true ∧ t = s.resetEdge) ∨
      (s.pins.rst = false ∧ s.offerChanged = false ∧ s.seq = .idle ∧ s.pins.cmdValid = false ∧ t = s.idleEdge) ∨
      (s.pins.rst = false ∧ s.offerChanged = false ∧ s.seq = .idle ∧ s.pins.cmdValid = true ∧
        t = s.acceptEdge (decide (decode s.pins.cmdWord = .command .trka))) ∨
      (s.pins.rst = false ∧ s.offerChanged = false ∧ s.seq = .waitAcq ∧ t = s.awaitEdge) ∨
      (s.pins.rst = false ∧ s.offerChanged = false ∧ s.seq = .exec ∧ s.cnt = 1 ∧
        t = (familyRule (decode s.capWord) s).goIdle) ∨
      (s.pins.rst = false ∧ s.offerChanged = false ∧ s.seq = .exec ∧ 1 < s.cnt ∧ t = s.countEdge) := by
  unfold edge at h
  split at h
  · next hr => exact .inl ⟨hr, by injection h with h; exact h.symm⟩
  · next hr =>
    have hr : s.pins.rst = false := by simpa using hr
    split at h
    · cases h
    · next ho =>
      have ho : s.offerChanged = false := by simpa using ho
      refine .inr ?_
      split at h
      · next hw =>
        refine .inl ⟨hr, ho, ?_⟩
        unfold State.currentWord at hw
        split at hw
        · next hs => exact ⟨hs, by simpa using hw, by injection h with h; exact h.symm⟩
        · cases hw
        · cases hw
      · next w hw =>
        refine .inr ?_
        rw [serveWord_eq] at h
        unfold State.currentWord at hw
        rcases serve_cases h with ⟨hs, ht⟩ | ⟨hs, ht⟩ | ⟨hs, hc, ht⟩ | ⟨hs, hc, ht⟩
        · rw [hs] at hw
          by_cases hv : s.pins.cmdValid = true
          · simp only [hv, if_true, Option.some.injEq] at hw
            exact .inl ⟨hr, ho, hs, hv, by rw [hw]; exact ht⟩
          · simp [hv] at hw
        · exact .inr (.inl ⟨hr, ho, hs, ht⟩)
        · rw [hs] at hw
          simp only [Option.some.injEq] at hw
          exact .inr (.inr (.inl ⟨hr, ho, hs, hc, by rw [hw]; exact ht⟩))
        · exact .inr (.inr (.inr ⟨hr, ho, hs, hc, ht⟩))

/-- A step with a next state is an edge, after which the ports carry the next values. -/
theorem step_next {s t : State} (h : step s = .next t) : ∃ u, edge s = .next u ∧ t = u.tickFrom s := by
  unfold step at h
  cases he : edge s with
  | next u =>
    rw [he] at h
    simp only [afterEdge] at h
    injection h with h
    exact ⟨u, rfl, h.symm⟩
  | fault r => rw [he] at h; cases h
  | refused r => rw [he] at h; cases h

/-- All that a step with a next state can be, said once: a reset edge, an idle edge, an acceptance, a wait, a completion or
a count, after which the ports carry the next values. -/
theorem step_cases {s t : State} (h : step s = .next t) :
    ∃ u, t = u.tickFrom s ∧
      ((s.pins.rst = true ∧ u = s.resetEdge) ∨
        (s.pins.rst = false ∧ s.offerChanged = false ∧ s.seq = .idle ∧ s.pins.cmdValid = false ∧ u = s.idleEdge) ∨
        (s.pins.rst = false ∧ s.offerChanged = false ∧ s.seq = .idle ∧ s.pins.cmdValid = true ∧
          u = s.acceptEdge (decide (decode s.pins.cmdWord = .command .trka))) ∨
        (s.pins.rst = false ∧ s.offerChanged = false ∧ s.seq = .waitAcq ∧ u = s.awaitEdge) ∨
        (s.pins.rst = false ∧ s.offerChanged = false ∧ s.seq = .exec ∧ s.cnt = 1 ∧
          u = (familyRule (decode s.capWord) s).goIdle) ∨
        (s.pins.rst = false ∧ s.offerChanged = false ∧ s.seq = .exec ∧ 1 < s.cnt ∧ u = s.countEdge)) := by
  obtain ⟨u, hu, ht⟩ := step_next h
  exact ⟨u, ht, edge_cases hu⟩

/-- A reset edge always has a next state. -/
theorem step_of_reset {s : State} (h : s.pins.rst = true) : step s = .next (s.resetEdge.tickFrom s) := by
  simp [step, edge, afterEdge, h]

end Sys2Proof.Machine
end

