-- ==== Sys2Proof/Tests/Slice0.lean ====
section
/-! SUPPORT. Tests: expected values come from the spec, most of them from 95_test_vectors.md, and witnesses show that
the statements' hypotheses can be met. -/

namespace Sys2Proof.Tests

open Sys2Proof.Machine

/-! Helpers: small states. -/

/-- An LC in IDLE after reset, `W = 12`, `LAT_EXEC = 1`, with these port values to come. -/
def lc (cycles : List Pins) : State := { State.reset with params := { width := 12, latExec := 1 }, inputs := cycles }

/-- A cycle in which the host offers a command. -/
def offer (word : CmdWord) (rd : Bus) : Pins := { Pins.quiet with cmdValid := true, cmdWord := word, cmdRd := rd }

/-- A cycle in which the adapter answers with data. -/
def answer (rd : Bus) : Pins := { Pins.quiet with acqDone := true, acqRd := rd }

/-- A cycle in which the adapter answers with an error. -/
def answerError : Pins := { Pins.quiet with acqDone := true, acqErr := true }

/-- A cycle with `rst = 1`. -/
def resetCycle : Pins := { Pins.quiet with rst := true }

/-- An LC at the edge before the completion of `word`, the vector in CAP_RD. -/
def due (word : CmdWord) (rd : Bus) (last : Byte) : State :=
  { lc [] with seq := .exec, cnt := 1, capWord := word, capRd := rd, lastPos := last }

/-- An LC that waits for an answer. -/
def waiting (cycles : List Pins) : State := { lc cycles with seq := .waitAcq, capWord := 0x0400 }

/-- What a step's or a meaning's next state satisfies. -/
def nextHas (o : Host.Outcome State Fault Refusal) (f : State → Bool) : Bool :=
  match o with
  | .next t => f t
  | .fault _ => false
  | .refused _ => false

/-- The response registers and the latch. -/
def shows (st : BitVec 2) (pat pos last : Byte) (t : State) : Bool :=
  decide (t.rspStatus = st ∧ t.rspPat = pat ∧ t.rspPos = pos ∧ t.lastPos = last ∧ t.rspValid = true ∧ t.seq = .idle)

/-! Well-formedness: each check refuses an ill-formed term. -/

theorem test_widthOk_refuses_zero : WellFormed.widthOk 0 = false := by decide
theorem test_widthOk_refuses_33 : WellFormed.widthOk 33 = false := by decide
theorem test_latencyOk_refuses_zero : WellFormed.latencyOk 0 = false := by decide
theorem test_patternOk_refuses_256 : WellFormed.patternOk 256 = false := by decide
theorem test_wordOk_refuses_65536 : WellFormed.wordOk 65536 = false := by decide
theorem test_codeOk_refuses_4096_at_12_bits : WellFormed.codeOk 12 4096 = false := by decide
theorem test_countOk_refuses_seven : WellFormed.countOk [1, 2, 3, 4, 5, 6, 7] = false := by decide
theorem test_vectorOk_refuses_code : WellFormed.vectorOk 1 [0, 0, 0, 2, 0, 0, 0, 0] = false := by decide
theorem test_vectorOk_refuses_nine : WellFormed.vectorOk 1 [0, 0, 0, 0, 0, 0, 0, 0, 0] = false := by decide
theorem test_busOk_refuses_bit_8 : WellFormed.busOk 1 0x100 = false := by decide
theorem test_instrOk_takes_all_ones : WellFormed.instrOk (.lut 0xFF) = true := by decide
theorem test_paramsWf_refuses_no_latency : Params.wf { width := 12, latExec := 0 } = false := by decide
theorem test_paramsWf_takes_boundaries :
    Params.wf { width := 1, latExec := 1 } = true ∧ Params.wf { width := 32, latExec := 9 } = true := by decide

/-! Decoding: words written out bit by bit, RSVD OP PAT (R70, R81; 95_test_vectors.md section 5.1). -/

theorem test_decode_bin : decode 0b00000_000_00000000 = .command .bin := by decide
theorem test_decode_bin_ignores_pat : decode 0b00000_000_11111111 = .command .bin := by decide
theorem test_decode_lut : decode 0b00000_001_00100011 = .command (.lut 0x23) := by decide
theorem test_decode_trkp : decode 0b00000_010_10101010 = .command (.trkp 0xAA) := by decide
theorem test_decode_trkv : decode 0b00000_011_11111111 = .command .trkv := by decide
theorem test_decode_trka : decode 0b00000_100_00000000 = .command .trka := by decide
theorem test_decode_op5 : decode 0b00000_101_00000000 = .illegal (.reservedOp 5) := by decide
theorem test_decode_op7 : decode 0b00000_111_11111111 = .illegal (.reservedOp 7) := by decide
theorem test_decode_rsvd_low : decode 0b00001_000_00000000 = .illegal (.reservedBits 1) := by decide
theorem test_decode_rsvd_high : decode 0b10000_001_00100000 = .illegal (.reservedBits 16) := by decide
theorem test_encode_words : encode .bin = 0x0000 ∧ encode (.lut 0xAA) = 0x01AA ∧ encode (.trkp 0x20) = 0x0220 ∧
    encode .trkv = 0x0300 ∧ encode .trka = 0x0400 := by decide
theorem test_tableWord_trkp : decodeTableWord 16 0x02AA = some (.trkp 0xAA) := by decide
theorem test_tableWord_illegal : decodeTableWord 16 0x0500 = none := by decide

/-! Buses and positions. -/

/-- B6: {0,100,200,300,400,500,600,700} is 0x0000640C812C1901F42582BC at `W = 12`. -/
theorem test_bus_order : (List.finRange 8).map (readings 12 0x0000640C812C1901F42582BC) =
    [0, 100, 200, 300, 400, 500, 600, 700] := by decide
theorem test_busOf_b6 : busOf 12 (vectorOfList [0, 100, 200, 300, 400, 500, 600, 700]) =
    0x0000640C812C1901F42582BC := by decide
theorem test_sext8 : sext8 0xF8 = -8 ∧ sext8 0x08 = 8 ∧ sext8 0x80 = -128 ∧ sext8 0x7F = 127 := by decide
theorem test_position_half : position 0x04 = some (1 / 2) := by
  rw [position_of_sext8 (n := 4) (by decide) (by decide)]; norm_num
theorem test_position_minus_one : position 0xF8 = some (-1) := by
  rw [position_of_sext8 (n := -8) (by decide) (by decide)]; norm_num
theorem test_undef_has_no_position : position 0x80 = none := by decide
theorem test_rev : rev 0b11010000 = 0b00001011 := by decide

/-! The binarizer, rows of 95_test_vectors.md section 2. -/

theorem test_binarize_b1_uniform : binarize (readings 12 0) = 0xFF := by decide
theorem test_binarize_b4 : binarize (readings 12 0x064064064384384064064064) = 0x18 := by decide
theorem test_binarize_b5_tie : binarize (readings 12 0x0003E81F4000000000000000) = 0x60 := by decide
theorem test_binarize_b7 : binarize (readings 12 0x2BC2581F419012C0C8064000) = 0xF0 := by decide
theorem test_binarize_b10_channel_0 : binarize (readings 12 0xFFF000000000000000000000) = 0x80 := by decide
theorem test_binarize_b12_odd_sum : binarize (readings 12 0x000FFF7FF800000000000000) = 0x50 := by decide
theorem test_binarize_b16_width_8 : binarize (readings 8 0x0123120101010101) = 0x60 := by decide
theorem test_binarize_b17_width_1 : binarize (readings 1 0x60) = 0x60 := by decide
theorem test_binarize_b18_width_32 : binarize
    (readings 32 0x00000000FFFFFFFF800000007FFFFFFF00000000000000000000000000000000) = 0x60 := by decide
theorem test_binarizeAtWidth_b18 : binarizeAtWidth 32
    (readings 32 0x00000000FFFFFFFF800000007FFFFFFF00000000000000000000000000000000) = 0x60 := by decide

/-! The ROM, byte for byte as R121 lists it. -/

/-- Row `r` of the ROM: the 16 entries from `16 * r`. -/
def romRow (r : Nat) : List Byte := (List.range 16).map fun c => romRead (BitVec.ofNat 8 (16 * r + c))

/-- A row whose only defined entry is its first. -/
def onlyFirst (b : Byte) : List Byte := b :: List.replicate 15 0x80

theorem test_rom_row_0 : romRow 0 = [0x80, 0xF8, 0xFA, 0xF9, 0xFC, 0x80, 0xFB, 0xFB, 0xFE, 0x80, 0x80, 0x80, 0xFD, 0x80,
    0xFC, 0xFA] := by decide
theorem test_rom_row_1 : romRow 1 = [0x02, 0x80, 0x80, 0x80, 0x80, 0x80, 0x80, 0x80, 0x00, 0x80, 0x80, 0x80, 0xFE, 0x80,
    0x80, 0x80] := by decide
theorem test_rom_row_3 : romRow 3 = [0x03, 0x80, 0x80, 0x80, 0x80, 0x80, 0x80, 0x80, 0x02, 0x80, 0x80, 0x80, 0x80, 0x80,
    0x80, 0x80] := by decide
theorem test_rom_other_rows : romRow 2 = onlyFirst 0x04 ∧ romRow 4 = onlyFirst 0x06 ∧ romRow 6 = onlyFirst 0x05 ∧
    romRow 7 = onlyFirst 0x04 ∧ romRow 8 = onlyFirst 0x08 ∧ romRow 12 = onlyFirst 0x07 ∧ romRow 14 = onlyFirst 0x05 ∧
    romRow 15 = onlyFirst 0x06 := by decide
theorem test_rom_undefined_rows : romRow 5 = onlyFirst 0x80 ∧ romRow 9 = onlyFirst 0x80 ∧ romRow 10 = onlyFirst 0x80 ∧
    romRow 11 = onlyFirst 0x80 ∧ romRow 13 = onlyFirst 0x80 := by decide

/-! The commands at their completion edge. -/

/-- E1. -/
theorem test_bin : nextHas (exec .bin (due 0x0000 0x064064064384384064064064 0x04)) (shows 0 0x18 0x80 0x04) = true := by
  decide
/-- T5: LUT leaves the latch. -/
theorem test_lut_undefined : nextHas (exec (.lut 0xAA) (due 0x01AA 0 0x06)) (shows 0 0xAA 0x80 0x06) = true := by decide
/-- R127: 0x80 is +1.0. -/
theorem test_lut_defined : nextHas (exec (.lut 0x80) (due 0x0180 0 0x06)) (shows 0 0x80 0x08 0x06) = true := by decide
/-- E5, first row. -/
theorem test_trkp_defined : nextHas (exec (.trkp 0x20) (due 0x0220 0 0x00)) (shows 0 0x20 0x04 0x04) = true := by decide
/-- E5, second row. -/
theorem test_trkp_falls_back : nextHas (exec (.trkp 0xAA) (due 0x02AA 0 0x04)) (shows 0 0xAA 0x04 0x04) = true := by
  decide
/-- V2. -/
theorem test_trkv : nextHas (exec .trkv (due 0x0300 0x0000640C812C1901F42582BC 0x00)) (shows 0 0x0F 0xFA 0xFA) = true := by
  decide
/-- V3. -/
theorem test_trkv_uniform : nextHas (exec .trkv (due 0x0300 0x800800800800800800800800 0xFA)) (shows 0 0xFF 0xFA 0xFA)
    = true := by decide
/-- A1, at its completion. -/
theorem test_trka_data : nextHas (exec .trka (due 0x0400 0xFFF000000000000000000000 0x00)) (shows 0 0x80 0x08 0x08)
    = true := by decide
/-- A2, at its completion. -/
theorem test_trka_error : nextHas (exec .trka { due 0x0400 0 0x08 with capErr := true }) (shows 2 0x00 0x80 0x08)
    = true := by decide

/-! Steps: the traces of 95_test_vectors.md section 5.3, and 5.2. -/

theorem test_trkv_accepted : nextHas (step (lc [offer 0x0300 0x064064064384384064064064])) (fun t =>
    decide (t.seq = .exec ∧ t.cnt = 1 ∧ t.busy = true ∧ t.cmdReady = false ∧ t.rspValid = false ∧ t.rspPos = 0x80)) = true := by
  decide
theorem test_trkv_completed : nextHas (step (due 0x0300 0x064064064384384064064064 0x00)) (fun t =>
    shows 0 0x18 0x00 0x00 t && t.cmdReady && !t.busy) = true := by decide
theorem test_strobe_falls : nextHas (step { lc [] with rspValid := true, rspPat := 0x18 }) (fun t =>
    decide (t.rspValid = false ∧ t.rspPat = 0x18)) = true := by decide
theorem test_trka_waits : nextHas (step (lc [offer 0x0400 0])) (fun t => t.acqReq && t.busy) = true := by decide
theorem test_trka_answered : nextHas (step (waiting [answer 0xFFF000000000000000000000])) (fun t =>
    decide (t.seq = .exec ∧ t.cnt = 1 ∧ t.acqReq = false ∧ t.capRd = 0xFFF000000000000000000000)) = true := by decide
theorem test_reset_while_waiting : nextHas (step { waiting [resetCycle, answer 1] with lastPos := 0x08 }) (fun t =>
    decide (t.seq = .idle ∧ t.acqReq = false ∧ t.rspValid = false ∧ t.lastPos = 0x00)) = true := by decide
theorem test_stray_answer_ignored : nextHas (step (lc [answer 1])) (fun t =>
    decide (t.seq = .idle ∧ t.rspValid = false)) = true := by decide
/-- X4: RSVD set on a TRKA opcode, so no request. -/
theorem test_illegal_never_waits : nextHas (step (lc [offer 0x0C00 0])) (fun t => t.busy && !t.acqReq) = true := by decide
/-- X1. -/
theorem test_illegal_completes : nextHas (step (due 0x0500 0 0x04)) (shows 1 0x00 0x80 0x04) = true := by decide
theorem test_exec_without_count_faults : exec .bin { due 0 0 0 with cnt := 0 } = .fault .execWithoutCount := rfl
theorem test_changed_offer_refused :
    step { due 0x0300 0 0 with inputs := [offer 0x0201 0], standing := some { word := 0x0200, rd := 0 } } =
      .refused .operandsChanged := rfl
theorem test_fetched_trkp_runs_after_reset :
    nextHas (step (State.reset.withFetchWord 16 0x0220)) (shows 0 0x20 0x04 0x04) = true := by decide
theorem test_fetched_trka_runs_after_reset :
    nextHas (step (State.reset.withFetchWord 16 0x0400)) (shows 0 0xFF 0x00 0x00) = true := by decide
theorem test_reset_alone_idles : nextHas (step State.reset) (fun t => decide (t.seq = .idle ∧ t.rspValid = false)) = true := by
  decide

/-! The command-level view. -/

/-- P3, first two TRKA. -/
theorem test_view_trka : View.run 12 View.reset
    [.accept 0x0400 0, .answer (.data 0xFFF000000000000000000000), .accept 0x0400 0, .answer .transportError] =
    some ({ lastPos := 0x08, phase := .idle },
      [{ status := 0, pat := 0x80, pos := 0x08 }, { status := 2, pat := 0x00, pos := 0x80 }]) := by decide
theorem test_view_no_accept_while_waiting :
    View.step 12 { lastPos := 0, phase := .waitAcq } (.accept 0x0000 0) = none := by decide
theorem test_view_since_reset :
    sinceReset [.accept 0x0220 0, .reset, .accept 0x02AA 0] = [.accept 0x02AA 0] := by decide

/-! The assembler. -/

/-- P4, second line. -/
theorem test_asm_track_pattern : assembleText 8 "TRACK 0x3C  ; TRKP".toList =
    .move (.offer { word := 0x023C, rd := 0 }) := by decide
theorem test_asm_lut_binary : assembleText 12 "LUT 0b10101010".toList =
    .move (.offer { word := 0x01AA, rd := 0 }) := by decide
theorem test_asm_cmd : assembleText 12 ".cmd 0x8120".toList = .move (.offer { word := 0x8120, rd := 0 }) := by decide
/-- P4, first line, from its tokens. -/
theorem test_asm_track_vector : (lineOfTokens (.word ['T', 'R', 'A', 'C', 'K'] :: .openVector :: .word ['1'] :: .comma ::
    .word ['3', '5'] :: .comma :: .word ['1', '8'] :: .comma :: .word ['1'] :: .comma :: .word ['1'] :: .comma ::
    .word ['1'] :: .comma :: .word ['1'] :: .comma :: .word ['1'] :: [.closeVector])).map (assemble 8) =
    some (.move (.offer { word := 0x0300, rd := 0x0123120101010101 })) := by decide
theorem test_asm_tokens_of_vector : tokens [] ['B', ' ', Char.ofNat 123, '7', ',', Char.ofNat 125] =
    [.word ['B'], .openVector, .word ['7'], .comma, .closeVector] := by decide
theorem test_asm_reset : assembleText 12 "RESET".toList = .move .assertReset := by decide
theorem test_asm_blank : assembleText 12 "   ; nothing".toList = .blank := by decide
theorem test_asm_empty : assembleText 12 [] = .blank := by decide
theorem test_asm_leading_zeros : decimal ['0', '0', '7'] = some 7 := by decide
/-- R85: `rst` for at least one edge. -/
theorem test_asm_reset_cycles : lineCycles 12 1 .reset = some [resetCycle, resetCycle] := by decide
/-- E5 as a program: the second line's command is accepted and completed. -/
theorem test_program_resets_then_tracks :
    (programCycles 12 [{ wait := 0, line := .reset, hold := 0 }, { wait := 0, line := .trkp 0x20, hold := 0 }]).bind
      (fun cs => (outputsAfter 3 { waiting cs with lastPos := 0x08 }).map fun o => (o.rspValid, o.rspPos, o.lastPos)) =
    some (true, 0x04, 0x04) := by decide
/-- R212: the host may wait before a command. -/
theorem test_program_waits :
    programCycles 12 [{ wait := 0, line := .reset, hold := 0 }, { wait := 2, line := .lut 0x18, hold := 0 }] =
    some [resetCycle, Pins.quiet, Pins.quiet, offer 0x0118 0] := by decide
/-- A refused line refuses its program. -/
theorem test_program_refused :
    programCycles 12 [{ wait := 0, line := .reset, hold := 0 }, { wait := 0, line := .lut 256, hold := 0 }] = none := by
  decide
theorem test_asm_lower_case_refused : assembleText 12 "lut 0x18".toList = .error .notALine := by decide
theorem test_asm_seven_readings : assemble 12 (.bin [1, 2, 3, 4, 5, 6, 7]) = .error (.wrongCount 7) := by decide
theorem test_asm_reading_too_wide : assemble 8 (.trkv [256, 0, 0, 0, 0, 0, 0, 0]) = .error .readingOutOfRange := by decide

/-! Witnesses: for each statement with hypotheses, a state and operands that meet them all. Several clauses of one
statement have a witness each, at the boundaries of their ranges. -/

theorem test_witness_DecodeUndoesEncode : WellFormed.instrOk .bin = true ∧ WellFormed.instrOk (.lut 0x00) = true ∧
    WellFormed.instrOk (.trkp 0xFF) = true ∧ WellFormed.instrOk .trkv = true ∧ WellFormed.instrOk .trka = true := by decide
theorem test_witness_EncodeRebuildsDecodedWord : decode 0x00FF = .command .bin ∧ decode 0x01FF = .command (.lut 0xFF) ∧
    decode 0x0200 = .command (.trkp 0x00) ∧ decode 0x03FF = .command .trkv ∧ decode 0x04FF = .command .trka := by decide
theorem test_witness_ReadingBusSlices : WellFormed.widthOk 1 = true ∧ WellFormed.widthOk 32 = true ∧
    (∀ i : Fin 8, (fun _ => 1 : Readings) i < 2 ^ 1) ∧ (∀ i : Fin 8, (fun _ => 2 ^ 32 - 1 : Readings) i < 2 ^ 32) ∧
    WellFormed.busOk 1 0xFF = true ∧ WellFormed.busOk 32 (BitVec.allOnes 256) = true := by decide

/-- Row B5's vector, which has a tie. -/
def tied : Readings := vectorOfList [0, 1000, 500, 0, 0, 0, 0, 0]

theorem test_witness_PatternBitIsMidpointTest :
    (∀ i, 0 ≤ tied i) ∧ tied 0 = 0 ∧ (∀ i, tied i ≤ 1000) ∧ tied 1 = 1000 := by decide
theorem test_witness_UniformVectorGivesAllOnes : ∀ i, (vectorOfList [7, 7, 7, 7, 7, 7, 7, 7]) i = 7 := by decide
theorem test_witness_PatternsTheBinarizerProduces :
    (∀ j, tied j ≤ tied 1) ∧ (∀ j, tied 0 ≤ tied j) ∧ tied 0 < tied 2 ∧
    binarize tied ≠ 0xFF ∧ binarize (fun _ => 0) = 0xFF ∧ binarize (fun _ => 4095) = 0xFF := by decide
theorem test_witness_ExactThresholdEquivalence : (0 : ℚ) < 1 / 4095 := by norm_num
theorem test_witness_BinarizerLaws : (∀ i, tied i ≤ 2 ^ 12 - 1) ∧ (∀ i, (fun _ => 1 : Readings) i ≤ 2 ^ 1 - 1) ∧
    (0 : ℚ) < 3 := by refine ⟨by decide, by decide, by norm_num⟩
theorem test_witness_OneExtraBitSuffices : WellFormed.widthOk 32 = true ∧
    (∀ i : Fin 8, (fun _ => 2 ^ 32 - 1 : Readings) i < 2 ^ 32) ∧ WellFormed.widthOk 12 = true ∧ ∀ i, tied i < 2 ^ 12 := by
  decide

theorem test_witness_BinCompletes : (due 0x0000 0 0x04).completes := by decide
theorem test_witness_LutCompletes : (due 0x01AA 0 0x04).completes := by decide
theorem test_witness_TrkpCompletes : (due 0x02AA 0 0x04).completes ∧
    (0x04 : Byte) = (if lookupPattern 0xAA = 0x80 then (due 0x02AA 0 0x04).lastPos else lookupPattern 0xAA) ∧
    (0x08 : Byte) = (if lookupPattern 0x80 = 0x80 then (due 0x0280 0 0x04).lastPos else lookupPattern 0x80) := by decide
theorem test_witness_TrkvCompletes : (due 0x0300 0 0x04).completes ∧ (0xFF : Byte) = binarize (readings 12 0) ∧
    (0x04 : Byte) = (if lookupPattern 0xFF = 0x80 then 0x04 else lookupPattern 0xFF) := by decide
theorem test_witness_TrkaCompletesWithData : (due 0x0400 0 0x04).completes ∧ (due 0x0400 0 0x04).capErr = false ∧
    (0xFF : Byte) = binarize (readings 12 0) ∧
    (0x04 : Byte) = (if lookupPattern 0xFF = 0x80 then 0x04 else lookupPattern 0xFF) := by decide
theorem test_witness_TrkaCompletesWithTransportError :
    ({ due 0x0400 0 0x04 with capErr := true } : State).completes := by decide
theorem test_witness_EveryCommandIsAccepted : (lc [offer 0x0400 0]).seq = .idle ∧ (lc [offer 0x02FF 0]).seq = .idle := by
  decide
theorem test_witness_TrkaWaitsForTheAnswer : (waiting []).seq = .waitAcq ∧ (waiting []).pins.acqDone = false ∧
    (waiting [answerError]).pins.acqDone = true ∧ (waiting [answerError]).pins.acqErr = true ∧
    (waiting [answer 5]).pins.acqDone = true ∧ (waiting [answer 5]).pins.acqErr = false := by decide
theorem test_witness_EveryCommandCounts : ({ due 0x0220 0 0 with cnt := 2 } : State).seq = .exec ∧
    1 < ({ due 0x0220 0 0 with cnt := 2 } : State).cnt := by decide
theorem test_witness_CommandFrame :
    nextHas (exec .bin { due 0 0 0 with cnt := 2 }) (fun _ => true) = true ∧
    nextHas (exec (.lut 0x80) (due 0 0 0)) (fun _ => true) = true ∧
    nextHas (exec .trkv (lc [])) (fun _ => true) = true ∧
    nextHas (exec .trka (waiting [answerError])) (fun _ => true) = true ∧ ¬ (waiting []).completes ∧ (due 0 0 0).completes :=
  by decide
theorem test_witness_CommandsStopOnlyWithoutCount :
    (({ due 0 0 0 with cnt := 0 } : State).seq = .exec ∧ ({ due 0 0 0 with cnt := 0 } : State).cnt = 0) ∧
    ¬ ((due 0 0 0).seq = .exec ∧ (due 0 0 0).cnt = 0) := by decide
theorem test_witness_StepRunsTheDecodedCommand :
    ((lc [offer 0x0220 0]).pins.rst = false ∧ (lc [offer 0x0220 0]).offerChanged = false ∧
      (lc [offer 0x0220 0]).seq = .idle ∧ (lc [offer 0x0220 0]).pins.cmdValid = true ∧
      (0x0220 : CmdWord) = (lc [offer 0x0220 0]).pins.cmdWord ∧ decode 0x0220 = .command (.trkp 0x20)) ∧
    ((due 0x0400 0 0).pins.rst = false ∧ (due 0x0400 0 0).offerChanged = false ∧ (due 0x0400 0 0).seq ≠ .idle ∧
      (0x0400 : CmdWord) = (due 0x0400 0 0).capWord ∧ decode 0x0400 = .command .trka) := by decide
theorem test_witness_IdleStepHoldsState :
    (lc []).pins.rst = false ∧ (lc []).seq = .idle ∧ (lc []).pins.cmdValid = false := by decide
theorem test_witness_IllegalWordCompletes :
    ((lc [offer 0x0500 0]).seq = .idle ∧ (lc [offer 0x0500 0]).pins.rst = false ∧
      (lc [offer 0x0500 0]).offerChanged = false ∧ (lc [offer 0x0500 0]).pins.cmdValid = true ∧
      decode (lc [offer 0x0500 0]).pins.cmdWord = .illegal (.reservedOp 5)) ∧
    ((due 0xFFFF 0 0).completes ∧ (due 0xFFFF 0 0).pins.rst = false ∧ (due 0xFFFF 0 0).offerChanged = false ∧
      decode (due 0xFFFF 0 0).capWord = .illegal (.reservedBits 31)) := by decide
theorem test_witness_ResetEdgeSetsResetValues : (waiting [resetCycle]).pins.rst = true ∧
    nextHas (step (waiting [resetCycle])) (fun t => !t.pins.rst) = true := by decide
theorem test_witness_SequencerTransitions :
    nextHas (step (lc [])) (fun t => decide (t.seq = .idle)) = true ∧
    nextHas (step (lc [offer 0x04FF 0])) (fun t => decide (t.seq = .waitAcq)) = true ∧
    nextHas (step (lc [offer 0x0500 0])) (fun t => decide (t.seq = .exec)) = true ∧
    nextHas (step (waiting [])) (fun t => decide (t.seq = .waitAcq)) = true ∧
    nextHas (step (waiting [answer 1])) (fun t => decide (t.seq = .exec)) = true ∧
    nextHas (step (due 0 0 0)) (fun t => decide (t.seq = .idle)) = true ∧
    nextHas (step { due 0 0 0 with cnt := 2 }) (fun t => decide (t.seq = .exec ∧ t.cnt = 1)) = true ∧
    nextHas (step (due 0 0 0 |> fun s => { s with inputs := [resetCycle] })) (fun t => decide (t.seq = .idle)) = true := by
  decide
theorem test_witness_CaptureRegisters :
    ((lc [offer 0x0220 9]).accepting = true ∧ nextHas (step (lc [offer 0x0220 9])) (fun t => decide (t.capRd = 9)) = true) ∧
    ((waiting [answerError]).acqReq = true ∧ (waiting [answerError]).pins.acqDone = true ∧
      nextHas (step (waiting [answerError])) (fun t => t.capErr) = true) ∧
    ((due 0 7 0).accepting = false ∧ (due 0 7 0).acqReq = false ∧
      nextHas (step (due 0 7 0)) (fun t => decide (t.capRd = 7)) = true) := by decide
theorem test_witness_ResponseStrobe : (lc []).pins.rst = false ∧ ¬ (lc []).completes ∧ (due 0 0 0).pins.rst = false ∧
    (due 0 0 0).completes ∧ nextHas (step (lc [])) (fun _ => true) = true ∧
    nextHas (step (due 0 0 0)) (fun t => t.rspValid) = true := by decide
theorem test_witness_ReadyAndBusy : (due 0 0 0).outputs.busy = true ∧ (lc []).outputs.cmdReady = true := by decide
theorem test_witness_AcquisitionRequest :
    ((lc [offer 0x0400 0]).acqReq = false ∧ nextHas (step (lc [offer 0x0400 0])) (fun t => t.acqReq) = true) ∧
    ((waiting [answer 1]).acqReq = true ∧ nextHas (step (waiting [answer 1])) (fun t => !t.acqReq) = true) ∧
    nextHas (step (waiting [resetCycle])) (fun t => !t.acqReq) = true ∧
    nextHas (step (waiting [])) (fun t => t.acqReq) = true := by decide
theorem test_witness_LatchWrittenOnlyByTracking : (due 0x0220 0 0x00).pins.rst = false ∧
    nextHas (step (due 0x0220 0 0x00)) (fun t => decide (t.lastPos ≠ 0x00)) = true := by decide
theorem test_witness_LatchNeverBecomesUndef : (due 0x02AA 0 0x04).lastPos ≠ undef ∧
    nextHas (step (due 0x02AA 0 0x04)) (fun t => decide (t.lastPos ≠ undef)) = true := by decide
theorem test_witness_OkWithoutPositionIsBinOrLut :
    ((due 0x01AA 0 0x04).lastPos ≠ undef ∧ (due 0x01AA 0 0x04).pins.rst = false ∧ (due 0x01AA 0 0x04).completes ∧
      nextHas (step (due 0x01AA 0 0x04)) (fun t => decide (t.rspStatus = 0b00 ∧ t.rspPos = 0x80)) = true) ∧
    nextHas (step (due 0x0000 0 0x04)) (fun t => decide (t.rspStatus = 0b00 ∧ t.rspPos = 0x80)) = true := by decide

/-- A state in which a host breaks its duty: it changes the word it offers. -/
def breach : State := { due 0x0300 0 0 with inputs := [offer 0x0201 0], standing := some { word := 0x0200, rd := 0 } }

theorem test_witness_ChangedOfferIsRefused : breach.standing = some { word := 0x0200, rd := 0 } ∧
    breach.pins.rst = false ∧ breach.pins.cmdValid = true ∧ breach.pins.cmdWord ≠ 0x0200 := by decide
theorem test_witness_EveryLawfulEdgeHasANextState :
    ((due 0x0220 0 0).Inv ∧ (due 0x0220 0 0).offerChanged = false) ∧
    (waiting [resetCycle]).Inv ∧ (waiting [resetCycle]).pins.rst = true := by decide
theorem test_witness_UnansweredTrkaWaitsForEver :
    (waiting [Pins.quiet, offer 0x0220 0]).seq = .waitAcq ∧
    (∀ q ∈ (waiting [Pins.quiet, offer 0x0220 0]).inputs.take 2, q.rst = false ∧ q.acqDone = false) ∧
    (outputsAfter 2 (waiting [Pins.quiet, offer 0x0220 0])).isSome = true ∧
    (∀ q ∈ (waiting [Pins.quiet]).inputs.take 5, q.cmdValid = false) := by decide
theorem test_witness_ResetAbandonsTheCommand : (waiting [resetCycle, answer 1]).pins.rst = true ∧
    (∀ q ∈ (waiting [resetCycle, answer 1]).inputs.tail.take 2, q.cmdValid = false) ∧
    (outputsAfter 3 (waiting [resetCycle, answer 1])).isSome = true := by decide
theorem test_witness_StepKeepsInvariant : (due 0x0220 0 0).Inv ∧ (waiting [answer 1]).Inv ∧ (lc [offer 0x0400 0]).Inv ∧
    nextHas (step (due 0x0220 0 0)) (fun t => decide t.Inv) = true := by decide
/-- From a latch that holds UNDEF, as before the first reset. -/
theorem test_witness_LatchHoldsAPositionAfterReset :
    ({ waiting [resetCycle, offer 0x0220 0] with lastPos := undef } : State).pins.rst = true ∧
    (outputsAfter 3 { waiting [resetCycle, offer 0x0220 0] with lastPos := undef }).map (·.lastPos) = some 0x04 := by decide

/-- E5 from reset: two tracking commands, each accepted and completed. -/
def tracksTwice : State := lc [offer 0x0220 0, Pins.quiet, offer 0x02AA 0, Pins.quiet]

theorem test_witness_ClockedRunRefinesCommandView : tracksTwice.Inv ∧
    (observe 4 tracksTwice).map (fun x => (x.1, x.2.1)) =
      some ([.accept 0x0220 0, .accept 0x02AA 0],
        [{ status := 0, pat := 0x20, pos := 0x04 }, { status := 0, pat := 0xAA, pos := 0x04 }]) := by decide
theorem test_witness_LatchClosedForm : tracksTwice.Inv ∧ (observe 4 tracksTwice).isSome = true ∧
    (lc [offer 0x0220 0, Pins.quiet, resetCycle]).Inv ∧
    (observe 3 (lc [offer 0x0220 0, Pins.quiet, resetCycle])).map (·.1) = some [.accept 0x0220 0, .reset] := by decide
theorem test_witness_LatchHoldsThroughAmbiguousFrames : tracksTwice.Inv ∧
    (observe 4 tracksTwice).map (·.1) = some (Event.accept 0x0220 0 :: [] ++ [.accept 0x02AA 0]) ∧
    trackedPattern 12 (.accept 0x0220 0) = some 0x20 ∧ lookupPattern 0x20 ≠ undef ∧
    trackedPattern 12 (.accept 0x02AA 0) = some 0xAA ∧ lookupPattern 0xAA = undef := by decide
theorem test_witness_UnspecifiedRegistersAreUnobservable : (lc [offer 0x0300 0]).seq = .idle ∧
    (lc [offer 0x0300 0]).agreeOnSpecified
      { lc [offer 0x0300 0] with cnt := 9, capWord := 0x0400, capRd := 3, capErr := true, freeCount := 4 } :=
  ⟨rfl, rfl, rfl, rfl, rfl, rfl, rfl, rfl, rfl, rfl⟩
theorem test_witness_IgnoredPatIsUnobservable : (lc [offer 0x0000 5]).accepting = true ∧ (lc [offer 0x0000 5]).standing = none ∧
    decode (lc [offer 0x0000 5]).pins.cmdWord = .command .bin ∧ decode (lc [offer 0x0300 5]).pins.cmdWord = .command .trkv ∧
    decode (lc [offer 0x0400 5]).pins.cmdWord = .command .trka ∧
    ((lc [offer 0x0000 5]).withOfferedPat 0xFF).pins.cmdWord = 0x00FF := by decide
theorem test_witness_IgnoredReadingBusIsUnobservable : (lc [offer 0x0220 5]).accepting = true ∧
    (lc [offer 0x0220 5]).standing = none ∧ decode (lc [offer 0x0220 5]).pins.cmdWord ≠ .command .bin ∧
    decode (lc [offer 0x0220 5]).pins.cmdWord ≠ .command .trkv := by decide
theorem test_witness_CommandCompletesAfterLatency : (lc [offer 0x0220 5]).Inv ∧ (lc [offer 0x0220 5]).accepting = true ∧
    (lc [offer 0x0220 5]).standing = none ∧ decode (lc [offer 0x0220 5]).pins.cmdWord ≠ .command .trka ∧
    (∀ q ∈ (lc [offer 0x0220 5]).inputs.tail.take 1, q.rst = false ∧ q.cmdValid = false) ∧
    (lc [offer 0x0220 5]).params.latExec = 1 := by decide
theorem test_witness_TrkaCompletesAfterAnswer : (waiting [answerError]).Inv ∧ (waiting [answerError]).seq = .waitAcq ∧
    (waiting [answerError]).pins.acqDone = true ∧
    (∀ q ∈ (waiting [answerError]).inputs.take 2, q.rst = false ∧ q.cmdValid = false) ∧
    (waiting [answer 5]).Inv ∧ (waiting [answer 5]).pins.acqDone = true ∧ (waiting [answer 5]).pins.acqErr = false := by decide
theorem test_witness_AssemblerRefusesMalformedOperands : WellFormed.vectorOk 8 [0, 0, 0, 0, 0, 0, 0] = false ∧
    WellFormed.vectorOk 8 [0, 0, 0, 0, 0, 0, 0, 256] = false ∧ 255 < 256 := by decide
theorem test_witness_UndefStandsForNoPosition : (0x00 : Byte) ≠ undef ∧ (0x7F : Byte) ≠ undef := by decide
theorem test_witness_ResetLineGivesTheStartState : lineCycles 12 0 .reset = some [resetCycle] ∧
    (waiting [resetCycle, answer 1]).inputs = [resetCycle] ++ [answer 1] ∧
    lineCycles 12 1 .reset = some [resetCycle, resetCycle] ∧
    (waiting [resetCycle, resetCycle]).inputs = [resetCycle, resetCycle] ++ [] := by decide
theorem test_witness_AssembledCommandIsTheOneWritten : WellFormed.widthOk 8 = true ∧
    WellFormed.vectorOk 8 [0, 0, 0, 0, 0, 0, 0, 255] = true := by decide
theorem test_witness_RomHoldsTheTable : lookupPattern 0xAA = 0x80 ∧ lookupPattern 0x18 ≠ undef := by decide

end Sys2Proof.Tests
end

