-- ==== Sys2Proof/Proofs/State.lean ====
section
/-! SUPPORT. The proofs of the statements on the state of the LC (10_state.md), and the facts they rest on. -/

namespace Sys2Proof.Machine

/-! The conditions on SEQ and the ports, as propositions (R34, R35, R37). -/

theorem State.cmdReady_iff {s : State} : s.cmdReady = true ↔ s.seq = .idle ∧ s.pins.rst = false := by
  simp [State.cmdReady]

theorem State.busy_iff {s : State} : s.busy = true ↔ s.seq ≠ .idle := by
  simp [State.busy]

theorem State.acqReq_iff {s : State} : s.acqReq = true ↔ s.seq = .waitAcq := by
  simp [State.acqReq]

theorem State.acqReq_eq_false_iff {s : State} : s.acqReq = false ↔ s.seq ≠ .waitAcq := by
  simp [State.acqReq]

theorem State.accepting_iff {s : State} :
    s.accepting = true ↔ s.pins.cmdValid = true ∧ s.seq = .idle ∧ s.pins.rst = false := by
  rw [State.accepting, Bool.and_eq_true, State.cmdReady_iff]

/-- A busy LC accepts nothing (R35). -/
theorem State.accepting_eq_false_of_busy {s : State} (h : s.busy = true) : s.accepting = false := by
  refine Bool.eq_false_iff.mpr fun ha => ?_
  obtain ⟨-, hidle, -⟩ := State.accepting_iff.mp ha
  exact State.busy_iff.mp h hidle

/-! A step by what the edge meets, where `rst = 0`; `step_of_reset` is the case of a reset edge. -/

theorem step_of_offerChanged {s : State} (hr : s.pins.rst = false) (ho : s.offerChanged = true) :
    step s = .refused .operandsChanged := by
  simp [step, edge, afterEdge, hr, ho]

theorem step_of_no_word {s : State} (hr : s.pins.rst = false) (ho : s.offerChanged = false)
    (hw : s.currentWord = none) : step s = .next (s.idleEdge.tickFrom s) := by
  simp [step, edge, afterEdge, hr, ho, hw]

theorem step_of_word {s : State} {w : CmdWord} (hr : s.pins.rst = false) (ho : s.offerChanged = false)
    (hw : s.currentWord = some w) :
    step s = afterEdge s (serve (decide (decode w = .command .trka)) (familyRule (decode w)) s) := by
  simp [step, edge, hr, ho, hw, serveWord_eq]

/-! The latch (R24, R26). -/

/-- A completion keeps the latch or resolves some pattern into it. -/
theorem familyRule_lastPos (d : Decoded) (s : State) :
    (familyRule d s).lastPos = s.lastPos ∨ ∃ p, (familyRule d s).lastPos = resolvedCode s.lastPos p := by
  cases d with
  | illegal e => exact .inl rfl
  | command i =>
    cases i with
    | bin => exact .inl rfl
    | lut p => exact .inl rfl
    | trkp p => exact .inr ⟨p, rfl⟩
    | trkv => exact .inr ⟨binarize s.vector, rfl⟩
    | trka =>
      simp only [familyRule, trkaRule]
      split
      · exact .inl rfl
      · exact .inr ⟨binarize s.vector, rfl⟩

/-- All that a step can do to the latch: reset it, keep it, or resolve some pattern into it. -/
theorem step_lastPos {s t : State} (h : step s = .next t) :
    (s.pins.rst = true ∧ t.lastPos = 0x00) ∨ t.lastPos = s.lastPos ∨
      ∃ p, t.lastPos = resolvedCode s.lastPos p := by
  obtain ⟨u, rfl, hreset | hidle | haccept | hwait | hcomplete | hcount⟩ := step_cases h
  · obtain ⟨hr, rfl⟩ := hreset
    exact .inl ⟨hr, rfl⟩
  · obtain ⟨-, -, -, -, rfl⟩ := hidle
    exact .inr (.inl rfl)
  · obtain ⟨-, -, -, -, rfl⟩ := haccept
    exact .inr (.inl (by simp [acceptEdge_fields]))
  · obtain ⟨-, -, -, rfl⟩ := hwait
    exact .inr (.inl (by simp [awaitEdge_fields]))
  · obtain ⟨-, -, -, -, rfl⟩ := hcomplete
    exact .inr (familyRule_lastPos _ s)
  · obtain ⟨-, -, -, -, rfl⟩ := hcount
    exact .inr (.inl rfl)

/-- `Resolve` stays within the 15 codes (R140, R142). -/
theorem resolvedCode_mem_latchCodes {last : Byte} (p : Byte) (h : last ∈ latchCodes) :
    resolvedCode last p ∈ latchCodes := by
  by_cases hp : lookupPattern p = undef
  · rwa [resolvedCode_of_undef hp]
  · rw [resolvedCode_of_defined hp]
    exact (lookupPattern_cases p).resolve_left hp

theorem zero_mem_latchCodes : (0x00 : Byte) ∈ latchCodes := by decide

theorem step_keeps_latchCodes {s t : State} (hs : s.lastPos ∈ latchCodes) (h : step s = .next t) :
    t.lastPos ∈ latchCodes := by
  rcases step_lastPos h with ⟨-, ht⟩ | ht | ⟨p, ht⟩
  · rw [ht]; exact zero_mem_latchCodes
  · rwa [ht]
  · rw [ht]; exact resolvedCode_mem_latchCodes p hs

/-- What every step keeps, every run keeps. -/
theorem reaches_keeps {P : State → Prop} (hstep : ∀ {s t : State}, P s → step s = .next t → P t) {k : Nat}
    {s t : State} (hs : P s) (h : reaches k s t) : P t := by
  induction k generalizing s with
  | zero => rwa [reaches_zero.mp h]
  | succ k ih =>
    obtain ⟨u, hu, hut⟩ := reaches_succ.mp h
    exact ih (hstep hs hu) hut

/-- A run that starts with a reset edge is a run from the state after that edge. -/
theorem reaches_succ_of_reset {k : Nat} {s t : State} (hr : s.pins.rst = true) :
    reaches (k + 1) s t ↔ reaches k (s.resetEdge.tickFrom s) t := by
  simp [reaches_succ, step_of_reset hr]

/-- The codes R24 keeps out of the latch. -/
theorem ne_of_mem_latchCodes : ∀ c ∈ latchCodes, c ≠ undef ∧ c ≠ 0x01 ∧ c ≠ 0xFF := by decide

/-- Each code of the latch stands in the lookup table (R126). -/
theorem exists_entry_of_mem_latchCodes : ∀ c ∈ latchCodes, ∃ e ∈ romDefined, lookupPattern e.1 = c := by decide

/-- The codes of the latch are the defined lookups (R24, R126). -/
theorem mem_latchCodes_iff {c : Byte} : c ∈ latchCodes ↔ ∃ p, lookupPattern p = c ∧ c ≠ undef := by
  constructor
  · intro hc
    obtain ⟨e, -, he⟩ := exists_entry_of_mem_latchCodes c hc
    obtain ⟨hne, -, -⟩ := ne_of_mem_latchCodes c hc
    exact ⟨e.1, he, hne⟩
  · rintro ⟨p, rfl, hp⟩
    exact (lookupPattern_cases p).resolve_left hp

/-- Settles O48: the reset edge puts a code of the table into the latch, and every later step keeps it within the
table. -/
theorem latchHoldsAPositionAfterReset : Obligations.LatchHoldsAPositionAfterReset := by
  refine ⟨fun k s t hr hrun => ?_, fun c => mem_latchCodes_iff.symm⟩
  have hstart : (s.resetEdge.tickFrom s).lastPos ∈ latchCodes := zero_mem_latchCodes
  have hmem : t.lastPos ∈ latchCodes :=
    reaches_keeps (P := fun u => u.lastPos ∈ latchCodes) step_keeps_latchCodes hstart
      ((reaches_succ_of_reset hr).mp hrun)
  exact ⟨hmem, ne_of_mem_latchCodes _ hmem⟩

/-! The acquisition request (R37). -/

/-- A step leads to WAIT_ACQ from the acceptance of a legal TRKA and from a wait that gets no answer, only (R27). -/
theorem step_seq_eq_waitAcq_iff {s t : State} (h : step s = .next t) :
    t.seq = .waitAcq ↔
      (s.accepting = true ∧ decode s.pins.cmdWord = .command .trka) ∨
        (s.seq = .waitAcq ∧ s.pins.rst = false ∧ s.pins.acqDone = false) := by
  obtain ⟨u, rfl, hreset | hidle | haccept | hwait | hcomplete | hcount⟩ := step_cases h
  · obtain ⟨hr, rfl⟩ := hreset
    simp [State.accepting_iff, hr]
  · obtain ⟨-, -, hs, hv, rfl⟩ := hidle
    simp [State.idleEdge, State.accepting_iff, hs, hv]
  · obtain ⟨hr, -, hs, hv, rfl⟩ := haccept
    simp [acceptEdge_fields, State.accepting_iff, hr, hs, hv]
  · obtain ⟨hr, -, hs, rfl⟩ := hwait
    simp [awaitEdge_fields, State.accepting_iff, hr, hs]
  · obtain ⟨-, -, hs, -, rfl⟩ := hcomplete
    simp [State.accepting_iff, hs]
  · obtain ⟨-, -, hs, -, rfl⟩ := hcount
    simp [State.countEdge, State.accepting_iff, hs]

/-! The acquisition ports: other values on them change nothing that an edge outside WAIT_ACQ reads (R37, R202). -/

section
variable (s : State) (done err : Bool) (rd : Bus)

@[simp] theorem State.withAnswerPins_seq : (s.withAnswerPins done err rd).seq = s.seq := rfl
@[simp] theorem State.withAnswerPins_cnt : (s.withAnswerPins done err rd).cnt = s.cnt := rfl
@[simp] theorem State.withAnswerPins_capErr : (s.withAnswerPins done err rd).capErr = s.capErr := rfl
@[simp] theorem State.withAnswerPins_rst : (s.withAnswerPins done err rd).pins.rst = s.pins.rst := rfl
@[simp] theorem State.withAnswerPins_offerChanged : (s.withAnswerPins done err rd).offerChanged = s.offerChanged := rfl
@[simp] theorem State.withAnswerPins_currentWord : (s.withAnswerPins done err rd).currentWord = s.currentWord := rfl

theorem State.resetEdge_withAnswerPins :
    (s.withAnswerPins done err rd).resetEdge = s.resetEdge.withAnswerPins done err rd := rfl

theorem State.idleEdge_withAnswerPins :
    (s.withAnswerPins done err rd).idleEdge = s.idleEdge.withAnswerPins done err rd := rfl

theorem State.countEdge_withAnswerPins :
    (s.withAnswerPins done err rd).countEdge = s.countEdge.withAnswerPins done err rd := rfl

theorem State.acceptEdge_withAnswerPins (a : Bool) :
    (s.withAnswerPins done err rd).acceptEdge a = (s.acceptEdge a).withAnswerPins done err rd := by
  cases a
  · rfl
  · rfl

theorem goIdle_familyRule_withAnswerPins (d : Decoded) :
    (familyRule d (s.withAnswerPins done err rd)).goIdle = (familyRule d s).goIdle.withAnswerPins done err rd := by
  cases d with
  | illegal e => rfl
  | command i =>
    cases i with
    | bin => rfl
    | lut p => rfl
    | trkp p => rfl
    | trkv => rfl
    | trka =>
      cases he : s.capErr with
      | true =>
        simp only [familyRule, trkaRule, State.withAnswerPins_capErr, he, ↓reduceIte]
        rfl
      | false =>
        simp only [familyRule, trkaRule, State.withAnswerPins_capErr, he, Bool.false_eq_true, ↓reduceIte]
        rfl

/-- The values the ports carry next do not depend on what the acquisition ports carried. -/
theorem State.tickFrom_withAnswerPins (u : State) :
    (u.withAnswerPins done err rd).tickFrom (s.withAnswerPins done err rd) = u.tickFrom s := rfl

/-- Outside WAIT_ACQ the sequencer does not read the acquisition ports. -/
theorem afterEdge_serve_withAnswerPins (a : Bool) (d : Decoded) (hs : s.seq ≠ .waitAcq) :
    afterEdge (s.withAnswerPins done err rd) (serve a (familyRule d) (s.withAnswerPins done err rd)) =
      afterEdge s (serve a (familyRule d) s) := by
  cases hq : s.seq with
  | waitAcq => exact absurd hq hs
  | idle =>
    rw [serve_idle (s := s) hq, serve_idle (by simpa using hq), State.acceptEdge_withAnswerPins]
    exact congrArg Host.Outcome.next (State.tickFrom_withAnswerPins ..)
  | exec =>
    obtain hc | hc | hc : s.cnt = 0 ∨ s.cnt = 1 ∨ 1 < s.cnt := by omega
    · simp [serve, hq, hc, afterEdge]
    · rw [serve_complete (s := s) hq hc, serve_complete (by simpa using hq) (by simpa using hc),
        goIdle_familyRule_withAnswerPins]
      exact congrArg Host.Outcome.next (State.tickFrom_withAnswerPins ..)
    · rw [serve_count (s := s) hq hc, serve_count (by simpa using hq) (by simpa using hc),
        State.countEdge_withAnswerPins]
      exact congrArg Host.Outcome.next (State.tickFrom_withAnswerPins ..)

/-- Outside WAIT_ACQ a step ignores the acquisition ports (R37). -/
theorem step_withAnswerPins (hs : s.seq ≠ .waitAcq) : step (s.withAnswerPins done err rd) = step s := by
  cases hr : s.pins.rst with
  | true =>
    rw [step_of_reset hr, step_of_reset (by simpa using hr), State.resetEdge_withAnswerPins,
      State.tickFrom_withAnswerPins]
  | false =>
    cases ho : s.offerChanged with
    | true => rw [step_of_offerChanged hr ho, step_of_offerChanged (by simpa using hr) (by simpa using ho)]
    | false =>
      cases hw : s.currentWord with
      | none =>
        rw [step_of_no_word hr ho hw, step_of_no_word (by simpa using hr) (by simpa using ho) (by simpa using hw),
          State.idleEdge_withAnswerPins, State.tickFrom_withAnswerPins]
      | some w =>
        rw [step_of_word hr ho hw, step_of_word (by simpa using hr) (by simpa using ho) (by simpa using hw)]
        exact afterEdge_serve_withAnswerPins s done err rd _ _ hs

end

/-- Settles O38: rise and fall from what leads to WAIT_ACQ, the rest from what an edge reads. -/
theorem acquisitionRequest : Obligations.AcquisitionRequest := by
  refine fun s => ⟨State.acqReq_iff, fun t h => ⟨fun hlow => ?_, fun hhigh => ?_⟩, fun hlow done err rd => ?_⟩
  · have hs := State.acqReq_eq_false_iff.mp hlow
    simp [State.acqReq_iff, step_seq_eq_waitAcq_iff h, hs]
  · have hs := State.acqReq_iff.mp hhigh
    rw [State.acqReq_eq_false_iff, Ne, step_seq_eq_waitAcq_iff h]
    simp [State.accepting_iff, hs, imp_iff_not_or]
  · exact step_withAnswerPins s done err rd (State.acqReq_eq_false_iff.mp hlow)

/-! The reset edge and the output ports (R25, R35, R36, R38). -/

/-- The reset value of the latch is position 0.0 (R25). -/
theorem position_zero : position 0x00 = some 0 := by
  have h : position 0x00 = some (((0 : Int) : ℚ) / 8) := position_of_sext8 (by decide) (by decide)
  simpa using h

/-- Settles O32: the next state is the reset edge's. -/
theorem resetEdgeSetsResetValues : Obligations.ResetEdgeSetsResetValues := by
  refine ⟨fun s hr => ⟨s.resetEdge.tickFrom s, step_of_reset hr, ?_⟩, rfl, rfl, rfl, rfl, rfl, rfl⟩
  exact ⟨rfl, position_zero, rfl, rfl, rfl, rfl, rfl, rfl, rfl,
    fun hnext => State.cmdReady_iff.mpr ⟨rfl, hnext⟩, rfl, rfl⟩

/-- Settles O36. -/
theorem readyAndBusy : Obligations.ReadyAndBusy :=
  fun _ => ⟨State.cmdReady_iff, State.busy_iff, State.accepting_eq_false_of_busy⟩

/-- Settles O37: the ports are the registers by the definition of the outputs. -/
theorem registersDriveThePorts : Obligations.RegistersDriveThePorts :=
  fun _ => ⟨rfl, rfl, rfl, rfl, rfl⟩

end Sys2Proof.Machine
end

section
/-! The slices of a reading bus (R54). A bus of `8 * W` bits is a number of eight digits in base `2 ^ W`, channel 0 the
leading one, so Mathlib's `finFunctionFinEquiv`, which pairs digit sequences with numbers, gives both directions between
buses and reading vectors. -/

namespace Sys2Proof.Machine

/-- The `W`-bit slices of a vector as digits in base `2 ^ W`, the least significant first: digit `j` is channel `7 - j`. -/
def busDigits (w : Nat) (rd : Readings) : Fin 8 → Fin (2 ^ w) :=
  fun j => ⟨rd j.rev % 2 ^ w, Nat.mod_lt _ (Nat.two_pow_pos w)⟩

@[simp] theorem busDigits_val (w : Nat) (rd : Readings) (j : Fin 8) :
    (busDigits w rd j : Nat) = rd j.rev % 2 ^ w := rfl

/-- Appending digit after digit is evaluating the number they write, the first digit the leading one. -/
theorem foldl_mul_add_eq_sum (base : Nat) {n : Nat} (f : Fin n → Nat) :
    (List.finRange n).foldl (fun b i => b * base + f i) 0 = ∑ j : Fin n, f j.rev * base ^ (j : Nat) := by
  induction n with
  | zero => rfl
  | succ n ih =>
    rw [List.finRange_succ_last, List.foldl_append, List.foldl_map, ih fun i => f i.castSucc, Fin.sum_univ_succ]
    simp [Finset.sum_mul, Fin.rev_succ, pow_succ, mul_assoc, add_comm]

/-- Eight slices of a width of R7 fit a bus. -/
theorem pow_width_eight_le {w : Nat} (hw : WellFormed.widthOk w = true) : (2 ^ w) ^ 8 ≤ 2 ^ 256 := by
  have hle : w ≤ 32 := by
    obtain ⟨-, hmax⟩ := Bool.and_eq_true_iff.mp hw
    exact of_decide_eq_true hmax
  rw [← pow_mul]
  exact Nat.pow_le_pow_right (by decide) (by omega)

theorem busOf_toNat {w : Nat} (hw : WellFormed.widthOk w = true) (rd : Readings) :
    (busOf w rd).toNat = (finFunctionFinEquiv (busDigits w rd) : Nat) := by
  rw [busOf, foldl_mul_add_eq_sum, BitVec.toNat_ofNat]
  simp only [← busDigits_val, ← finFunctionFinEquiv_apply]
  exact Nat.mod_eq_of_lt ((finFunctionFinEquiv (busDigits w rd)).isLt.trans_le (pow_width_eight_le hw))

/-- The channels of a bus that holds the number `n` are the digits of `n`. -/
theorem readings_eq_digit {w : Nat} {b : Bus} {n : Fin ((2 ^ w) ^ 8)} (h : b.toNat = n) (i : Fin 8) :
    readings w b i = (finFunctionFinEquiv.symm n i.rev : Nat) := by
  have hrev : (i.rev : Nat) = 7 - i.val := by rw [Fin.val_rev]; omega
  rw [finFunctionFinEquiv_symm_apply_val, hrev, readings, channelCode, pow_mul, h]

theorem readings_eq_extractLsb' (w : Nat) (b : Bus) (i : Fin 8) :
    readings w b i = (b.extractLsb' (w * (7 - i.val)) w).toNat := by
  rw [BitVec.extractLsb'_toNat, Nat.shiftRight_eq_div_pow, readings, channelCode]

theorem readings_busOf {w : Nat} {rd : Readings} (hw : WellFormed.widthOk w = true) (hrd : ∀ i, rd i < 2 ^ w) :
    readings w (busOf w rd) = rd := by
  funext i
  rw [readings_eq_digit (busOf_toNat hw rd), Equiv.symm_apply_apply, busDigits_val, Fin.rev_rev,
    Nat.mod_eq_of_lt (hrd i)]

/-- Cutting a bus into its channels gives back the digits of its number. -/
theorem busDigits_readings {w : Nat} {b : Bus} {n : Fin ((2 ^ w) ^ 8)} (h : b.toNat = n) :
    busDigits w (readings w b) = finFunctionFinEquiv.symm n := by
  funext j
  apply Fin.ext
  rw [busDigits_val, readings_eq_digit h, Fin.rev_rev, Nat.mod_eq_of_lt (Fin.isLt _)]

theorem busOf_readings {w : Nat} {b : Bus} (hw : WellFormed.widthOk w = true) (hb : WellFormed.busOk w b = true) :
    busOf w (readings w b) = b := by
  have hlt : b.toNat < (2 ^ w) ^ 8 := by
    rw [← pow_mul, Nat.mul_comm]
    exact of_decide_eq_true hb
  apply BitVec.eq_of_toNat_eq
  rw [busOf_toNat hw, busDigits_readings (n := ⟨b.toNat, hlt⟩) rfl, Equiv.apply_symm_apply]

/-- Settles O5: a channel is a digit of the bus, and a number and its digits determine each other. -/
theorem readingBusSlices : Obligations.ReadingBusSlices :=
  fun w hw => ⟨readings_eq_extractLsb' w, fun _ => readings_busOf hw, fun _ => busOf_readings hw⟩

end Sys2Proof.Machine
end

section
/-! The PAT field of a command word, and the words that carry one that means nothing (R70, R73). -/

namespace Sys2Proof

/-- A word with another PAT in its bits 7:0 (R70). -/
def replacePat (w : CmdWord) (pat : Byte) : CmdWord := (w &&& 0xFF00) ||| pat.setWidth 16

theorem getLsbD_upperByteMask : ∀ i < 16, (0xFF00 : CmdWord).getLsbD i = decide (8 ≤ i) := by decide

/-- Above PAT the bits are those of the word. -/
theorem replacePat_getLsbD_of_le (w : CmdWord) (pat : Byte) {i : Nat} (hi : 8 ≤ i) (hw : i < 16) :
    (replacePat w pat).getLsbD i = w.getLsbD i := by
  rw [replacePat, BitVec.getLsbD_or, BitVec.getLsbD_and, getLsbD_upperByteMask i hw]
  simp [hi]

@[simp] theorem fieldRsvd_replacePat (w : CmdWord) (pat : Byte) : fieldRsvd (replacePat w pat) = fieldRsvd w := by
  apply BitVec.eq_of_getLsbD_eq
  intro i hi
  simp [fieldRsvd, hi, replacePat_getLsbD_of_le w pat (i := 11 + i) (by omega) (by omega)]

@[simp] theorem fieldOp_replacePat (w : CmdWord) (pat : Byte) : fieldOp (replacePat w pat) = fieldOp w := by
  apply BitVec.eq_of_getLsbD_eq
  intro i hi
  simp [fieldOp, hi, replacePat_getLsbD_of_le w pat (i := 8 + i) (by omega) (by omega)]

theorem decode_of_rsvd {w : CmdWord} (h : fieldRsvd w = 0) : decode w = selectOp (fieldOp w) (fieldPat w) := if_pos h

theorem decode_of_rsvd_ne {w : CmdWord} (h : fieldRsvd w ≠ 0) : decode w = .illegal (.reservedBits (fieldRsvd w)) :=
  if_neg h

theorem decode_packWord (op : BitVec 3) (pat : Byte) : decode (packWord op pat) = selectOp op pat := by
  rw [decode_of_rsvd (fieldRsvd_packWord op pat), fieldOp_packWord, fieldPat_packWord]

/-- The commands whose word carries a PAT that means nothing (R73). -/
abbrev Decoded.IgnoresPat (d : Decoded) : Prop := d = .command .bin ∨ d = .command .trkv ∨ d = .command .trka

/-- An OP that selects one of them selects it with any PAT. -/
theorem selectOp_of_ignoresPat {op : BitVec 3} {p : Byte} (q : Byte) (h : (selectOp op p).IgnoresPat) :
    selectOp op q = selectOp op p := by
  unfold selectOp at h ⊢
  split at h
  case h_2 => simp [Decoded.IgnoresPat] at h
  case h_3 => simp [Decoded.IgnoresPat] at h
  all_goals rfl

/-- A word of BIN, TRKV or TRKA decodes alike with any PAT (R73). -/
theorem decode_replacePat {w : CmdWord} (pat : Byte) (h : (decode w).IgnoresPat) :
    decode (replacePat w pat) = decode w := by
  by_cases hr : fieldRsvd w = 0
  · rw [decode_of_rsvd hr] at h ⊢
    rw [decode_of_rsvd (by simpa using hr), fieldOp_replacePat]
    exact selectOp_of_ignoresPat _ h
  · rw [decode_of_rsvd_ne hr, decode_of_rsvd_ne (by simpa using hr), fieldRsvd_replacePat]

end Sys2Proof
end

section
/-! A step by what the edge meets where `rst = 0`, the converse of `step_cases` (R27). -/

namespace Sys2Proof.Machine

/-- The state after the acceptance of the offered word (R27, R28). -/
def State.accepted (s : State) : State :=
  (s.acceptEdge (decide (decode s.pins.cmdWord = .command .trka))).tickFrom s

/-- What an acceptance does to each field but the standing offer. -/
theorem State.accepted_fields (s : State) :
    s.accepted.seq = (if decode s.pins.cmdWord = .command .trka then .waitAcq else .exec) ∧
      s.accepted.cnt = (if decode s.pins.cmdWord = .command .trka then s.cnt else s.params.latExec) ∧
      s.accepted.capWord = s.pins.cmdWord ∧ s.accepted.capRd = s.pins.cmdRd ∧ s.accepted.capErr = s.capErr ∧
      s.accepted.lastPos = s.lastPos ∧ s.accepted.rspStatus = s.rspStatus ∧ s.accepted.rspPat = s.rspPat ∧
      s.accepted.rspPos = s.rspPos ∧ s.accepted.rspValid = false ∧ s.accepted.params = s.params ∧
      s.accepted.inputs = s.inputs.tail ∧ s.accepted.freeCount = s.freeCount := by
  simp [State.accepted, acceptEdge_fields]

variable {s : State} (hr : s.pins.rst = false) (ho : s.offerChanged = false)
include hr ho

theorem step_of_idle (hs : s.seq = .idle) (hv : s.pins.cmdValid = false) : step s = .next (s.idleEdge.tickFrom s) :=
  step_of_no_word hr ho (by simp [State.currentWord, hs, hv])

theorem step_of_accept (hs : s.seq = .idle) (hv : s.pins.cmdValid = true) : step s = .next s.accepted := by
  rw [step_of_word (w := s.pins.cmdWord) hr ho (by simp [State.currentWord, hs, hv]), serve_idle hs]; rfl

theorem step_of_waitAcq (hs : s.seq = .waitAcq) : step s = .next (s.awaitEdge.tickFrom s) := by
  rw [step_of_word (w := s.capWord) hr ho (by simp [State.currentWord, hs]), serve_wait hs]; rfl

theorem step_of_complete (hs : s.seq = .exec) (hc : s.cnt = 1) :
    step s = .next ((familyRule (decode s.capWord) s).goIdle.tickFrom s) := by
  rw [step_of_word (w := s.capWord) hr ho (by simp [State.currentWord, hs]), serve_complete hs hc]; rfl

theorem step_of_count (hs : s.seq = .exec) (hc : 1 < s.cnt) : step s = .next (s.countEdge.tickFrom s) := by
  rw [step_of_word (w := s.capWord) hr ho (by simp [State.currentWord, hs]), serve_count hs hc]; rfl

end Sys2Proof.Machine
end

section
/-! Two states that no observer at the ports tells apart: CNT, CAP_WORD, CAP_RD and CAP_ERR may differ where the command
in flight does not read them. `State.Alike` says so, every step keeps it, and so all later outputs agree. -/

namespace Sys2Proof.Machine

/-- The captured operands that the completion of a command reads agree: the vector for BIN and TRKV, the error and,
where there is none, the vector for TRKA (R111, R144 to R146). -/
def State.agreeOnOperands (s t : State) : Decoded → Prop
  | .command .bin => s.capRd = t.capRd
  | .command (.lut _) => True
  | .command (.trkp _) => True
  | .command .trkv => s.capRd = t.capRd
  | .command .trka => s.capErr = t.capErr ∧ (s.capErr = false → s.capRd = t.capRd)
  | .illegal _ => True

/-- Two states agree on all that the ports can show, now or after any number of edges: on what is specified and, while a
command is in flight, on what is still read of it. -/
structure State.Alike (s t : State) : Prop where
  specified : s.agreeOnSpecified t
  /-- What waits is a TRKA, so a stale CAP_RD beside an error answer is never read. -/
  waits : s.waitInv
  /-- The captured word counts through its decoding only. -/
  command : s.seq ≠ .idle → decode s.capWord = decode t.capWord
  count : s.seq = .exec → s.cnt = t.cnt
  /-- CAP_RD and CAP_ERR count where the completion reads them. -/
  operands : s.seq = .exec → s.agreeOnOperands t (decode s.capWord)

variable {s t u v : State}

/-! What follows from agreeing on the specified registers. -/

theorem State.agreeOnSpecified.symm (h : s.agreeOnSpecified t) : t.agreeOnSpecified s := by
  obtain ⟨hlast, hseq, hstatus, hpat, hpos, hvalid, hparams, hinputs, hstanding⟩ := h
  exact ⟨hlast.symm, hseq.symm, hstatus.symm, hpat.symm, hpos.symm, hvalid.symm, hparams.symm, hinputs.symm,
    hstanding.symm⟩

/-- Agreeing states differ in the unspecified registers and the count of free values only. -/
theorem State.agreeOnSpecified.eq (h : s.agreeOnSpecified t) :
    t = { s with
      cnt := t.cnt, capWord := t.capWord, capRd := t.capRd, capErr := t.capErr, freeCount := t.freeCount } := by
  obtain ⟨hlast, hseq, hstatus, hpat, hpos, hvalid, hparams, hinputs, hstanding⟩ := h
  rw [hlast, hseq, hstatus, hpat, hpos, hvalid, hparams, hinputs, hstanding]

theorem State.agreeOnSpecified_of_eq {c : Nat} {w : CmdWord} {rd : Bus} {e : Bool} {f : Nat}
    (h : t = { s with cnt := c, capWord := w, capRd := rd, capErr := e, freeCount := f }) : s.agreeOnSpecified t := by
  subst h
  exact ⟨rfl, rfl, rfl, rfl, rfl, rfl, rfl, rfl, rfl⟩

section
variable (h : s.agreeOnSpecified t)
include h

theorem State.agreeOnSpecified.lastPos : s.lastPos = t.lastPos := by rw [h.eq]
theorem State.agreeOnSpecified.seq : s.seq = t.seq := by rw [h.eq]
theorem State.agreeOnSpecified.params : s.params = t.params := by rw [h.eq]
theorem State.agreeOnSpecified.pins : s.pins = t.pins := by rw [h.eq]; rfl
theorem State.agreeOnSpecified.offerChanged : s.offerChanged = t.offerChanged := by rw [h.eq]; rfl
theorem State.agreeOnSpecified.outputs : s.outputs = t.outputs := by rw [h.eq]; rfl

/-! The register transfers and the edges keep the agreement. -/

theorem State.agreeOnSpecified.writeLast (b : Byte) : (s.writeLast b).agreeOnSpecified (t.writeLast b) := by
  rw [h.eq]; exact agreeOnSpecified_of_eq rfl

theorem State.agreeOnSpecified.respond (st : Status) (p b : Byte) :
    (s.respond st p b).agreeOnSpecified (t.respond st p b) := by
  rw [h.eq]; exact agreeOnSpecified_of_eq rfl

theorem State.agreeOnSpecified.goIdle : s.goIdle.agreeOnSpecified t.goIdle := by
  rw [h.eq]; exact agreeOnSpecified_of_eq rfl

theorem State.agreeOnSpecified.resetEdge : s.resetEdge.agreeOnSpecified t.resetEdge := by
  rw [h.eq]; exact agreeOnSpecified_of_eq rfl

theorem State.agreeOnSpecified.idleEdge : s.idleEdge.agreeOnSpecified t.idleEdge := by
  rw [h.eq]; exact agreeOnSpecified_of_eq rfl

theorem State.agreeOnSpecified.countEdge : s.countEdge.agreeOnSpecified t.countEdge := by
  rw [h.eq]; exact agreeOnSpecified_of_eq rfl

theorem State.agreeOnSpecified.acceptEdge (a : Bool) : (s.acceptEdge a).agreeOnSpecified (t.acceptEdge a) := by
  rw [h.eq]
  cases a
  · exact agreeOnSpecified_of_eq rfl
  · exact agreeOnSpecified_of_eq rfl

theorem State.agreeOnSpecified.awaitEdge : s.awaitEdge.agreeOnSpecified t.awaitEdge := by
  simp only [State.awaitEdge, ← h.pins]
  rw [h.eq]
  split
  · exact agreeOnSpecified_of_eq rfl
  · exact agreeOnSpecified_of_eq rfl

theorem State.agreeOnSpecified.tickFrom (huv : u.agreeOnSpecified v) :
    (u.tickFrom s).agreeOnSpecified (v.tickFrom t) := by
  rw [h.eq, huv.eq]; exact agreeOnSpecified_of_eq rfl

theorem State.agreeOnSpecified.trackPattern (p : Byte) : (s.trackPattern p).agreeOnSpecified (t.trackPattern p) := by
  rw [trackPattern_eq, trackPattern_eq, h.lastPos]
  exact (h.writeLast _).respond _ _ _

theorem State.agreeOnSpecified.vector (hrd : s.capRd = t.capRd) : s.vector = t.vector := by
  rw [State.vector, State.vector, h.params, hrd]

/-- Completions of one command agree if the operands it reads do. -/
theorem State.agreeOnSpecified.familyRule {d : Decoded} (hop : s.agreeOnOperands t d) :
    (familyRule d s).agreeOnSpecified (familyRule d t) := by
  cases d with
  | illegal e => exact h.respond _ _ _
  | command i =>
    cases i with
    | bin =>
      simp only [Machine.familyRule, binRule, h.vector hop]
      exact h.respond _ _ _
    | lut p => exact h.respond _ _ _
    | trkp p => exact h.trackPattern p
    | trkv =>
      simp only [Machine.familyRule, trkvRule, h.vector hop]
      exact h.trackPattern _
    | trka =>
      obtain ⟨herr, hrd⟩ := hop
      cases he : s.capErr with
      | true =>
        simp only [Machine.familyRule, trkaRule, ← herr, he, ↓reduceIte]
        exact h.respond _ _ _
      | false =>
        simp only [Machine.familyRule, trkaRule, ← herr, he, Bool.false_eq_true, ↓reduceIte, h.vector (hrd he)]
        exact h.trackPattern _

/-- In IDLE the unspecified registers are free to differ. -/
theorem State.Alike.of_idle (hs : s.seq = .idle) : s.Alike t where
  specified := h
  waits := by simp [hs]
  command := by simp [hs]
  count := by simp [hs]
  operands := by simp [hs]

end

theorem State.agreeOnOperands.symm {d : Decoded} (h : s.agreeOnOperands t d) : t.agreeOnOperands s d := by
  cases d with
  | illegal e => trivial
  | command i =>
    cases i with
    | bin => exact Eq.symm h
    | lut p => trivial
    | trkp p => trivial
    | trkv => exact Eq.symm h
    | trka =>
      obtain ⟨herr, hrd⟩ := h
      exact ⟨herr.symm, fun he => (hrd (herr.trans he)).symm⟩

theorem State.Alike.symm (h : s.Alike t) : t.Alike s where
  specified := h.specified.symm
  waits ht := by
    have hs : s.seq = .waitAcq := h.specified.seq.trans ht
    rw [← h.command (by simp [hs])]
    exact h.waits hs
  command ht := (h.command (h.specified.seq ▸ ht)).symm
  count ht := (h.count (h.specified.seq.trans ht)).symm
  operands ht := by
    have hs : s.seq = .exec := h.specified.seq.trans ht
    rw [← h.command (by simp [hs])]
    exact (h.operands hs).symm

/-- Acceptances leave alike states if the words decode alike and the buses agree where the command reads its own. -/
theorem State.Alike.of_accept (h : s.accepted.agreeOnSpecified t.accepted)
    (hword : decode s.pins.cmdWord = decode t.pins.cmdWord)
    (hrd : decode s.pins.cmdWord = .command .bin ∨ decode s.pins.cmdWord = .command .trkv →
      s.pins.cmdRd = t.pins.cmdRd) : s.accepted.Alike t.accepted where
  specified := h
  waits hs := by simpa [accepted_fields] using hs
  command _ := by simpa [accepted_fields] using hword
  count hs := by
    have hne : decode s.pins.cmdWord ≠ .command .trka := fun htrka => by simp [accepted_fields, htrka] at hs
    have hparams : s.params = t.params := by simpa [accepted_fields] using h.params
    simp [accepted_fields, ← hword, hne, hparams]
  operands hs := by
    simp only [accepted_fields]
    cases hd : decode s.pins.cmdWord with
    | illegal e => trivial
    | command i =>
      cases i with
      | bin => simpa [agreeOnOperands, accepted_fields] using hrd (.inl hd)
      | lut p => trivial
      | trkp p => trivial
      | trkv => simpa [agreeOnOperands, accepted_fields] using hrd (.inr hd)
      | trka => simp [accepted_fields, hd] at hs

/-- An edge in WAIT_ACQ captures the same answer, of which TRKA reads no vector beside an error (R145, R146). -/
theorem State.Alike.of_await (h : s.Alike t) (hs : s.seq = .waitAcq) :
    (s.awaitEdge.tickFrom s).Alike (t.awaitEdge.tickFrom t) where
  specified := h.specified.tickFrom h.specified.awaitEdge
  waits _ := by simpa [awaitEdge_fields] using h.waits hs
  command _ := by simpa [awaitEdge_fields] using h.command (by simp [hs])
  count hexec := by
    have hd : s.pins.acqDone = true := of_not_not fun hd => by simp [awaitEdge_fields, hs, hd] at hexec
    simp [awaitEdge_fields, ← h.specified.pins, hd, h.specified.params]
  operands hexec := by
    have hd : s.pins.acqDone = true := of_not_not fun hd => by simp [awaitEdge_fields, hs, hd] at hexec
    simp +contextual [awaitEdge_fields, h.waits hs, agreeOnOperands, ← h.specified.pins, hd]

theorem State.Alike.of_count (h : s.Alike t) (hs : s.seq = .exec) :
    (s.countEdge.tickFrom s).Alike (t.countEdge.tickFrom t) where
  specified := h.specified.tickFrom h.specified.countEdge
  waits := by simp [State.countEdge, hs]
  command _ := h.command (by simp [hs])
  count _ := congrArg (· - 1) (h.count hs)
  operands _ := h.operands hs

/-- Alike states take steps to alike states. -/
theorem State.Alike.exists_step (h : s.Alike t) (hstep : step s = .next u) : ∃ v, step t = .next v ∧ u.Alike v := by
  have hpins := h.specified.pins
  have hseq := h.specified.seq
  have hoffer := h.specified.offerChanged
  obtain ⟨e, rfl, hreset | hidle | haccept | hwait | hcomplete | hcount⟩ := step_cases hstep
  · obtain ⟨hr, rfl⟩ := hreset
    exact ⟨_, step_of_reset (hpins ▸ hr), .of_idle (h.specified.tickFrom h.specified.resetEdge) rfl⟩
  · obtain ⟨hr, ho, hs, hv, rfl⟩ := hidle
    exact ⟨_, step_of_idle (hpins ▸ hr) (hoffer ▸ ho) (hseq ▸ hs) (hpins ▸ hv),
      .of_idle (h.specified.tickFrom h.specified.idleEdge) hs⟩
  · obtain ⟨hr, ho, hs, hv, rfl⟩ := haccept
    refine ⟨_, step_of_accept (hpins ▸ hr) (hoffer ▸ ho) (hseq ▸ hs) (hpins ▸ hv),
      .of_accept ?_ (by rw [hpins]) fun _ => by rw [hpins]⟩
    simp only [State.accepted, ← hpins]
    exact h.specified.tickFrom (h.specified.acceptEdge _)
  · obtain ⟨hr, ho, hs, rfl⟩ := hwait
    exact ⟨_, step_of_waitAcq (hpins ▸ hr) (hoffer ▸ ho) (hseq ▸ hs), h.of_await hs⟩
  · obtain ⟨hr, ho, hs, hc, rfl⟩ := hcomplete
    refine ⟨_, step_of_complete (hpins ▸ hr) (hoffer ▸ ho) (hseq ▸ hs) (h.count hs ▸ hc), .of_idle ?_ rfl⟩
    rw [← h.command (by simp [hs])]
    exact h.specified.tickFrom (h.specified.familyRule (h.operands hs)).goIdle
  · obtain ⟨hr, ho, hs, hc, rfl⟩ := hcount
    exact ⟨_, step_of_count (hpins ▸ hr) (hoffer ▸ ho) (hseq ▸ hs) (h.count hs ▸ hc), h.of_count hs⟩

/-- Alike states show the same outputs after any number of edges. -/
theorem State.Alike.outputsAfter_eq (h : s.Alike t) (k : Nat) : outputsAfter k s = outputsAfter k t := by
  induction k generalizing s t with
  | zero => rw [outputsAfter_zero, outputsAfter_zero, h.specified.outputs]
  | succ k ih =>
    by_cases hnext : ∃ u, step s = .next u
    · obtain ⟨u, hu⟩ := hnext
      obtain ⟨v, hv, huv⟩ := h.exists_step hu
      rw [outputsAfter_succ_of_next hu, outputsAfter_succ_of_next hv, ih huv]
    · have hstop : ∀ v, step t ≠ .next v := by
        intro v hv
        obtain ⟨u, hu, -⟩ := h.symm.exists_step hv
        exact hnext ⟨u, hu⟩
      rw [outputsAfter_succ_of_stop (not_exists.mp hnext), outputsAfter_succ_of_stop hstop]

end Sys2Proof.Machine
end

section
/-! The proofs of the statements on the encoding of commands (30_encoding.md). -/

namespace Sys2Proof.Machine

/-- With no earlier offer standing the host has broken no duty (R34). -/
theorem State.offerChanged_of_standing_none {s : State} (h : s.standing = none) : s.offerChanged = false := by
  simp [State.offerChanged, h]

theorem State.cmdReady_of_accepting {s : State} (h : s.accepting = true) : s.cmdReady = true := by
  obtain ⟨-, hready⟩ := State.accepting_iff.mp h
  exact State.cmdReady_iff.mpr hready

/-- An accepted offer no longer stands (R34). -/
theorem State.accepted_standing {s : State} (h : s.accepting = true) : s.accepted.standing = none := by
  simp [State.accepted, State.standingAfter, h]

theorem step_of_accepting {s : State} (h : s.accepting = true) (hstanding : s.standing = none) :
    step s = .next s.accepted := by
  obtain ⟨hv, hs, hr⟩ := State.accepting_iff.mp h
  exact step_of_accept hr (State.offerChanged_of_standing_none hstanding) hs hv

/-! Two offers for one and the same edge. -/

section
variable {s t : State} {p : Pins} (ht : t = { s with inputs := p :: s.inputs.tail }) (hsa : s.accepting = true)
  (hta : t.accepting = true) (hword : decode s.pins.cmdWord = decode t.pins.cmdWord)
include ht hsa hta

/-- The output ports of an accepting cycle do not show the offer. -/
theorem State.outputs_eq_of_accepting : s.outputs = t.outputs := by
  simp only [State.outputs, State.cmdReady_of_accepting hsa, State.cmdReady_of_accepting hta]
  rw [ht]
  rfl

include hword

theorem State.accepted_agreeOnSpecified : s.accepted.agreeOnSpecified t.accepted := by
  simp only [agreeOnSpecified, accepted_fields, accepted_standing hsa, accepted_standing hta, hword]
  simp [ht]

/-- After its acceptance a command is known by its decoding and by the vector where it reads one (R73, R74). -/
theorem outputsAfter_eq_of_accepting (hstanding : s.standing = none)
    (hrd : decode s.pins.cmdWord = .command .bin ∨ decode s.pins.cmdWord = .command .trkv →
      s.pins.cmdRd = t.pins.cmdRd) (k : Nat) : outputsAfter k s = outputsAfter k t := by
  have hstanding' : t.standing = none := by rw [ht]; exact hstanding
  cases k with
  | zero => rw [outputsAfter_zero, outputsAfter_zero, State.outputs_eq_of_accepting ht hsa hta]
  | succ k =>
    have halike : s.accepted.Alike t.accepted :=
      .of_accept (State.accepted_agreeOnSpecified ht hsa hta hword) hword hrd
    rw [outputsAfter_succ_of_next (step_of_accepting hsa hstanding),
      outputsAfter_succ_of_next (step_of_accepting hta hstanding'), halike.outputsAfter_eq k]

end

theorem State.withOfferedPat_cmdWord (s : State) (pat : Byte) :
    (s.withOfferedPat pat).pins.cmdWord = replacePat s.pins.cmdWord pat := rfl

/-- An accepted word whose command ignores PAT shows the same outputs with every PAT (R73). -/
theorem outputsAfter_withOfferedPat {s : State} (k : Nat) (pat : Byte) (h : s.accepting = true)
    (hstanding : s.standing = none) (hd : (decode s.pins.cmdWord).IgnoresPat) :
    outputsAfter k (s.withOfferedPat pat) = outputsAfter k s := by
  have hword : decode s.pins.cmdWord = decode (s.withOfferedPat pat).pins.cmdWord := by
    rw [State.withOfferedPat_cmdWord, decode_replacePat pat hd]
  exact (outputsAfter_eq_of_accepting (t := s.withOfferedPat pat) rfl h h hword hstanding (fun _ => rfl) k).symm

/-- Settles O53: after its acceptance the word is read through its decoding only, and the decoder drops the PAT of BIN,
TRKV and TRKA; the encoder's clauses are the fields of a packed word. -/
theorem ignoredPatIsUnobservable : Obligations.IgnoredPatIsUnobservable :=
  ⟨fun k _ pat h hstanding hd => outputsAfter_withOfferedPat k pat h hstanding hd,
    fieldPat_packWord 0 0, fieldPat_packWord 3 0, fieldPat_packWord 4 0,
    fun p => ⟨decode_packWord 1 p, decode_packWord 2 p⟩⟩

/-! The undefined sentinel (R77). -/

theorem sext8_undef : sext8 undef = -128 := by decide

theorem position_of_ne_undef {c : Byte} (h : c ≠ undef) : position c = some ((sext8 c : ℚ) / 8) :=
  position_of_sext8 h rfl

theorem position_eq_none_iff {c : Byte} : position c = none ↔ c = undef := by
  constructor
  · intro hnone
    by_contra h
    simp [position_of_ne_undef h] at hnone
  · rintro rfl
    exact position_undef

theorem isDefined_iff {c : Byte} : isDefined c = true ↔ c ≠ undef := decide_eq_true_iff

theorem position_isSome_iff {c : Byte} : (position c).isSome = true ↔ c ≠ undef := by
  rw [Option.isSome_iff_ne_none, Ne, position_eq_none_iff]

/-- Settles O12: the one code without a position is UNDEF, the one code DEFINED rules out. -/
theorem undefStandsForNoPosition : Obligations.UndefStandsForNoPosition :=
  ⟨rfl, sext8_undef, by simp [sext8_undef], fun _ =>
    ⟨position_eq_none_iff, isDefined_iff.trans position_isSome_iff.symm, position_of_ne_undef⟩⟩

/-! The pseudo-command TRACK (R84). -/

/-- Settles O60: each form of TRACK is assembled by the clause of the command it stands for. -/
theorem trackExpandsToTrackingCommands : Obligations.TrackExpandsToTrackingCommands :=
  fun _ _ _ => ⟨rfl, rfl, rfl⟩

end Sys2Proof.Machine
end

section
/-! The proofs of the statements on the binarizer (40_binarizer.md). The extremes of a vector are the least and the
greatest element of the set of its readings, so what a change of the vector does to that set it does to the extremes. -/

namespace Sys2Proof.Machine

/-! The extremes as the bounds of the set of readings (R100). -/

theorem isLeast_lowest (rd : Readings) : IsLeast (Set.range rd) (lowest rd) :=
  ⟨exists_lowest rd, Set.forall_mem_range.mpr (lowest_le rd)⟩

theorem isGreatest_highest (rd : Readings) : IsGreatest (Set.range rd) (highest rd) :=
  ⟨exists_highest rd, Set.forall_mem_range.mpr (le_highest rd)⟩

theorem isLeast_lowestQ (r : Fin 8 → ℚ) : IsLeast (Set.range r) (lowestQ r) :=
  ⟨exists_lowestQ r, Set.forall_mem_range.mpr (lowestQ_le r)⟩

theorem isGreatest_highestQ (r : Fin 8 → ℚ) : IsGreatest (Set.range r) (highestQ r) :=
  ⟨exists_highestQ r, Set.forall_mem_range.mpr (le_highestQ r)⟩

theorem lowest_eq {rd : Readings} {mn : Nat} (hle : ∀ i, mn ≤ rd i) (hmem : ∃ i, rd i = mn) : lowest rd = mn :=
  (isLeast_lowest rd).unique ⟨hmem, Set.forall_mem_range.mpr hle⟩

theorem highest_eq {rd : Readings} {mx : Nat} (hle : ∀ i, rd i ≤ mx) (hmem : ∃ i, rd i = mx) : highest rd = mx :=
  (isGreatest_highest rd).unique ⟨hmem, Set.forall_mem_range.mpr hle⟩

/-! The bits of a pattern (R102, R103). -/

theorem isDark_eq (rd : Readings) (i : Fin 8) : isDark rd i = decide (lowest rd + highest rd ≤ 2 * rd i) := rfl

theorem binarize_getLsbD (rd : Readings) (i : Fin 8) : (binarize rd).getLsbD (7 - i.val) = isDark rd i :=
  packPattern_getLsbD _ i

theorem isDark_iff {rd : Readings} {i : Fin 8} : isDark rd i = true ↔ lowest rd + highest rd ≤ 2 * rd i :=
  decide_eq_true_iff

theorem isDark_eq_false_iff {rd : Readings} {i : Fin 8} : isDark rd i = false ↔ 2 * rd i < lowest rd + highest rd := by
  rw [isDark_eq, decide_eq_false_iff_not, not_le]

/-- Settles O6: the extremes are determined by their bounds, and channel `i`'s bit is packed at `7 - i`. -/
theorem patternBitIsMidpointTest : Obligations.PatternBitIsMidpointTest := by
  intro rd mn mx hmn hmnMem hmx hmxMem i
  rw [binarize_getLsbD, isDark_eq, lowest_eq hmn hmnMem, highest_eq hmx hmxMem]

/-! What patterns there are (R104, R105). -/

theorem getLsbD_ones : ∀ i : Fin 8, (0xFF : Byte).getLsbD (7 - i.val) = true := by decide

theorem getLsbD_zeros : ∀ i : Fin 8, (0x00 : Byte).getLsbD (7 - i.val) = false := by decide

theorem isDark_of_greatest {rd : Readings} {i : Fin 8} (h : ∀ j, rd j ≤ rd i) : isDark rd i = true := by
  have hmx : highest rd = rd i := highest_eq h ⟨i, rfl⟩
  have hmn := lowest_le rd i
  exact isDark_iff.mpr (by omega)

theorem isDark_of_least {rd : Readings} {i j : Fin 8} (h : ∀ j, rd i ≤ rd j) (hlt : rd i < rd j) :
    isDark rd i = false := by
  have hmn : lowest rd = rd i := lowest_eq h ⟨i, rfl⟩
  have hmx := le_highest rd j
  exact isDark_eq_false_iff.mpr (by omega)

theorem exists_isDark (rd : Readings) : ∃ i, isDark rd i = true := by
  obtain ⟨i, hi⟩ := exists_highest rd
  exact ⟨i, isDark_of_greatest fun j => hi ▸ le_highest rd j⟩

/-- Where two readings differ, the least reading is light. -/
theorem exists_not_isDark {rd : Readings} (h : ¬ ∀ i j, rd i = rd j) : ∃ i, isDark rd i = false := by
  obtain ⟨k, hk⟩ := exists_lowest rd
  have hle : ∀ j, rd k ≤ rd j := fun j => hk ▸ lowest_le rd j
  by_contra hall
  have heq : ∀ j, rd k = rd j := fun j => by
    by_contra hne
    exact hall ⟨k, isDark_of_least hle (lt_of_le_of_ne (hle j) hne)⟩
  exact h fun i j => (heq i).symm.trans (heq j)

theorem binarize_eq_ones_iff {rd : Readings} : binarize rd = 0xFF ↔ ∀ i j, rd i = rd j := by
  constructor
  · intro hones
    by_contra h
    obtain ⟨i, hi⟩ := exists_not_isDark h
    rw [← binarize_getLsbD, hones, getLsbD_ones] at hi
    contradiction
  · intro heq
    refine pattern_ext fun i => ?_
    rw [binarize_getLsbD, getLsbD_ones, isDark_of_greatest fun j => (heq j i).le]

theorem binarize_ne_zeros (rd : Readings) : binarize rd ≠ 0x00 := by
  intro hzero
  obtain ⟨i, hi⟩ := exists_isDark rd
  rw [← binarize_getLsbD, hzero, getLsbD_zeros] at hi
  contradiction

/-- A bit of some channel is a bit of the pattern. -/
theorem exists_binarize_bit {rd : Readings} {b : Bool} (h : ∃ i, isDark rd i = b) :
    ∃ j, j < 8 ∧ (binarize rd).getLsbD j = b := by
  obtain ⟨i, hi⟩ := h
  exact ⟨7 - i.val, by omega, (binarize_getLsbD rd i).trans hi⟩

/-- Settles O7: the vectors that give 0xFF are the uniform ones. -/
theorem uniformVectorGivesAllOnes : Obligations.UniformVectorGivesAllOnes :=
  fun _ _ h => binarize_eq_ones_iff.mpr fun i j => (h i).trans (h j).symm

/-- Settles O8: a greatest reading is always dark, a least one light unless the vector is uniform. -/
theorem patternsTheBinarizerProduces : Obligations.PatternsTheBinarizerProduces := by
  intro rd
  refine ⟨fun i h => ?_, fun i h hlt => ?_, binarize_ne_zeros rd, binarize_eq_ones_iff, fun hne => ?_⟩
  · rw [binarize_getLsbD, isDark_of_greatest h]
  · obtain ⟨j, hj⟩ := hlt
    rw [binarize_getLsbD, isDark_of_least h hj]
  · exact ⟨exists_binarize_bit (exists_isDark rd),
      exists_binarize_bit (exists_not_isDark (binarize_eq_ones_iff.not.mp hne))⟩

/-! The source's rational threshold (R101) and its affine invariance (R106). -/

theorem thresholdQ_eq (r : Fin 8 → ℚ) : thresholdQ r = (lowestQ r + highestQ r) / 2 := by
  rw [thresholdQ]; ring

/-- The extremes of rational readings that a monotone map gives from readings of any kind. -/
theorem lowestQ_comp {α : Type} [Preorder α] {g : α → ℚ} (hg : Monotone g) {r : Fin 8 → α} {m : α}
    (h : IsLeast (Set.range r) m) : lowestQ (fun i => g (r i)) = g m := by
  have hmap := hg.map_isLeast h
  rw [← Set.range_comp] at hmap
  exact (isLeast_lowestQ _).unique hmap

theorem highestQ_comp {α : Type} [Preorder α] {g : α → ℚ} (hg : Monotone g) {r : Fin 8 → α} {m : α}
    (h : IsGreatest (Set.range r) m) : highestQ (fun i => g (r i)) = g m := by
  have hmap := hg.map_isGreatest h
  rw [← Set.range_comp] at hmap
  exact (isGreatest_highestQ _).unique hmap

theorem thresholdQ_affine (r : Fin 8 → ℚ) {a : ℚ} (b : ℚ) (ha : 0 < a) :
    thresholdQ (fun i => a * r i + b) = a * thresholdQ r + b := by
  have hmono : Monotone fun x : ℚ => a * x + b := (monotone_mul_left_of_nonneg ha.le).add_const b
  rw [thresholdQ_eq, thresholdQ_eq, lowestQ_comp hmono (isLeast_lowestQ r), highestQ_comp hmono (isGreatest_highestQ r)]
  ring

theorem thresholdQ_cast (rd : Readings) :
    thresholdQ (fun i => (rd i : ℚ)) = ((lowest rd : ℚ) + (highest rd : ℚ)) / 2 := by
  rw [thresholdQ_eq, lowestQ_comp Nat.mono_cast (isLeast_lowest rd), highestQ_comp Nat.mono_cast (isGreatest_highest rd)]

theorem binarizeQ_affine (r : Fin 8 → ℚ) {a : ℚ} (b : ℚ) (ha : 0 < a) :
    binarizeQ (fun i => a * r i + b) = binarizeQ r := by
  simp only [binarizeQ, thresholdQ_affine r b ha, add_lt_add_iff_right, mul_lt_mul_iff_right₀ ha]

/-- On the codes themselves the source's threshold test is the test of the doubled reading. -/
theorem cast_lt_thresholdQ_iff (rd : Readings) (i : Fin 8) :
    (rd i : ℚ) < thresholdQ (fun j => (rd j : ℚ)) ↔ 2 * rd i < lowest rd + highest rd := by
  rw [thresholdQ_cast, lt_div_iff₀ two_pos, mul_comm]
  norm_cast

theorem binarizeQ_cast (rd : Readings) : binarizeQ (fun i => (rd i : ℚ)) = binarize rd := by
  refine congrArg packPattern (funext fun i => ?_)
  rw [isDark_eq, ← decide_not, decide_eq_decide, cast_lt_thresholdQ_iff, not_lt]

theorem binarizeQ_affine_cast (rd : Readings) {a : ℚ} (b : ℚ) (ha : 0 < a) :
    binarizeQ (fun i => a * (rd i : ℚ) + b) = binarize rd :=
  (binarizeQ_affine (fun i => (rd i : ℚ)) b ha).trans (binarizeQ_cast rd)

/-- Settles O9: scaling is the affine map with no offset. -/
theorem exactThresholdEquivalence : Obligations.ExactThresholdEquivalence :=
  ⟨thresholdQ_eq, fun rd k hk => by simpa using binarizeQ_affine_cast rd 0 hk⟩

/-! Permutation and mirror (R106). -/

/-- A permutation of the channels leaves the set of readings, so its extremes, as they are. -/
theorem extremes_permute (rd : Readings) (f : Fin 8 ≃ Fin 8) :
    lowest (fun j => rd (f j)) = lowest rd ∧ highest (fun j => rd (f j)) = highest rd := by
  have hrange : Set.range (fun j => rd (f j)) = Set.range rd := f.surjective.range_comp rd
  exact ⟨(isLeast_lowest _).unique (hrange ▸ isLeast_lowest rd),
    (isGreatest_highest _).unique (hrange ▸ isGreatest_highest rd)⟩

theorem isDark_permute (rd : Readings) (f : Fin 8 ≃ Fin 8) (i : Fin 8) :
    isDark (fun j => rd (f j)) i = isDark rd (f i) := by
  obtain ⟨hmn, hmx⟩ := extremes_permute rd f
  rw [isDark_eq, isDark_eq, hmn, hmx]

theorem rev_getLsbD (p : Byte) (i : Fin 8) : (rev p).getLsbD (7 - i.val) = p.getLsbD (7 - i.rev.val) := by
  have hlt : 7 - i.val < 8 := by omega
  have hi : 7 - (7 - i.val) = i.val := by omega
  have hrev : 7 - i.rev.val = i.val := by rw [Fin.val_rev]; omega
  have hbit : (rev p).getLsbD (7 - i.val) = _ := BitVec.getLsbD_ofBoolListBE
  rw [hbit, hrev]
  simp [hi, hlt]

/-- The mirror is the permutation that reverses the channels. -/
theorem binarize_rev (rd : Readings) : binarize (fun i => rd i.rev) = rev (binarize rd) := by
  refine pattern_ext fun i => ?_
  rw [binarize_getLsbD, rev_getLsbD, binarize_getLsbD]
  exact isDark_permute rd Fin.revPerm i

/-! Inversion of the codes (R106). -/

/-- Inversion of the codes exchanges the extremes. -/
theorem extremes_invert (rd : Readings) (c : Nat) :
    lowest (fun j => c - rd j) = c - highest rd ∧ highest (fun j => c - rd j) = c - lowest rd := by
  have hanti : Antitone fun x : Nat => c - x := fun _ _ h => Nat.sub_le_sub_left h c
  have hleast := hanti.map_isGreatest (isGreatest_highest rd)
  have hgreatest := hanti.map_isLeast (isLeast_lowest rd)
  rw [← Set.range_comp] at hleast hgreatest
  exact ⟨(isLeast_lowest _).unique hleast, (isGreatest_highest _).unique hgreatest⟩

theorem isDark_invert {rd : Readings} {c : Nat} (h : ∀ i, rd i ≤ c) (i : Fin 8) :
    isDark (fun j => c - rd j) i = decide (2 * rd i ≤ lowest rd + highest rd) := by
  obtain ⟨hmn, hmx⟩ := extremes_invert rd c
  have hhigh : highest rd ≤ c := by obtain ⟨k, hk⟩ := exists_highest rd; exact hk ▸ h k
  have hlow := (lowest_le rd i).trans (h i)
  have hi := h i
  rw [isDark_eq, hmn, hmx, decide_eq_decide]
  omega

theorem not_getLsbD (p : Byte) (i : Fin 8) : (~~~p).getLsbD (7 - i.val) = !p.getLsbD (7 - i.val) := by
  simp [show 7 - i.val < 8 by omega]

/-- A reading is not above the midpoint if it is below or at it. -/
theorem decide_le_midpoint_eq (rd : Readings) (i : Fin 8) :
    decide (2 * rd i ≤ lowest rd + highest rd) = (!isDark rd i || decide (2 * rd i = lowest rd + highest rd)) := by
  rw [Bool.eq_iff_iff, decide_eq_true_iff, Bool.or_eq_true, Bool.not_eq_true', isDark_eq_false_iff, decide_eq_true_iff]
  exact le_iff_lt_or_eq

theorem binarize_invert {rd : Readings} {c : Nat} (h : ∀ i, rd i ≤ c) :
    binarize (fun j => c - rd j) =
      ~~~(binarize rd) ||| packPattern fun i => decide (2 * rd i = lowest rd + highest rd) := by
  refine pattern_ext fun i => ?_
  rw [BitVec.getLsbD_or, not_getLsbD, packPattern_getLsbD, binarize_getLsbD, binarize_getLsbD, isDark_invert h,
    decide_le_midpoint_eq]

/-- Settles O10: each change of the vector moves the extremes along with the readings. -/
theorem binarizerLaws : Obligations.BinarizerLaws := by
  refine ⟨fun r _ b ha => binarizeQ_affine r b ha, fun rd _ b ha => binarizeQ_affine_cast rd b ha, binarize_rev,
    fun w rd h => ⟨fun i => ?_, binarize_invert h⟩, fun rd f i => ?_⟩
  · rw [binarize_getLsbD, isDark_invert h]
  · rw [binarize_getLsbD, binarize_getLsbD, isDark_permute]

/-! The width of the arithmetic (R108). -/

section
variable {w : Nat} {rd : Readings} (h : ∀ i, rd i < 2 ^ w)
include h

theorem two_mul_reading_le (i : Fin 8) : 2 * rd i ≤ 2 ^ (w + 1) - 2 := by
  have hi := h i
  rw [pow_succ]
  omega

/-- Each extreme is a reading. -/
theorem extremesSum_le : extremesSum rd ≤ 2 ^ (w + 1) - 2 := by
  obtain ⟨i, hi⟩ := exists_lowest rd
  obtain ⟨j, hj⟩ := exists_highest rd
  have hlow := two_mul_reading_le h i
  have hhigh := two_mul_reading_le h j
  rw [extremesSum, ← hi, ← hj]
  omega

/-- Neither the sum of the extremes nor a doubled reading wraps in `W + 1` bits. -/
theorem isDarkAtWidth_eq (i : Fin 8) : isDarkAtWidth w rd i = isDark rd i := by
  have hlt : 2 ^ (w + 1) - 2 < 2 ^ (w + 1) := Nat.sub_lt (Nat.two_pow_pos _) two_pos
  have hsum : lowest rd + highest rd < 2 ^ (w + 1) := (extremesSum_le h).trans_lt hlt
  have hdouble : 2 * rd i < 2 ^ (w + 1) := (two_mul_reading_le h i).trans_lt hlt
  have hi : rd i < 2 ^ (w + 1) := by omega
  have htwice : (BitVec.ofNat (w + 1) (rd i) <<< 1).toNat = 2 * rd i := by
    rw [BitVec.toNat_shiftLeft, BitVec.toNat_ofNat, Nat.mod_eq_of_lt hi, Nat.shiftLeft_eq, pow_one, mul_comm,
      Nat.mod_eq_of_lt hdouble]
  have hextremes : (BitVec.ofNat (w + 1) (lowest rd) + BitVec.ofNat (w + 1) (highest rd)).toNat =
      lowest rd + highest rd := by
    rw [← BitVec.ofNat_add, BitVec.toNat_ofNat, Nat.mod_eq_of_lt hsum]
  simp only [isDarkAtWidth, BitVec.ule, hextremes, htwice, isDark_eq]

theorem binarizeAtWidth_eq : binarizeAtWidth w rd = binarize rd :=
  congrArg packPattern (funext (isDarkAtWidth_eq h))

end

theorem le_of_widthOk {w : Nat} (hw : WellFormed.widthOk w = true) : w ≤ 32 := by
  obtain ⟨-, hmax⟩ := Bool.and_eq_true_iff.mp hw
  exact of_decide_eq_true hmax

/-- Settles O11: both sides of the comparison fit `W + 1` bits. -/
theorem oneExtraBitSuffices : Obligations.OneExtraBitSuffices :=
  fun _ _ hw h => ⟨Nat.succ_le_succ (le_of_widthOk hw), extremesSum_le h, two_mul_reading_le h, binarizeAtWidth_eq h⟩

end Sys2Proof.Machine
end

section
/-! The proofs of the statements on the lookup ROM (41_lookup.md). The defined lookups are the entries of the table, so
a law over all 256 patterns is one over the 23 entries. -/

namespace Sys2Proof.Machine

/-! The defined lookups are the entries of the table (R120, R121, R123). -/

/-- No key stands twice in the table, so each entry is the lookup of its key. -/
theorem lookupPattern_of_mem : ∀ e ∈ romDefined, lookupPattern e.1 = e.2 :=
  List.all_iff_forall_prop.mp (by decide)

theorem code_ne_undef_of_mem : ∀ e ∈ romDefined, e.2 ≠ undef :=
  List.all_iff_forall_prop.mp (by decide)

theorem mem_romDefined_of_lookup_eq_some {p c : Byte} (h : romDefined.lookup p = some c) : (p, c) ∈ romDefined := by
  obtain ⟨before, after, hsplit, -⟩ := List.lookup_eq_some_iff.mp h
  simp [hsplit]

theorem mem_romDefined_iff {p c : Byte} : (p, c) ∈ romDefined ↔ lookupPattern p = c ∧ c ≠ undef := by
  constructor
  · exact fun h => ⟨lookupPattern_of_mem _ h, code_ne_undef_of_mem _ h⟩
  · rintro ⟨rfl, hdef⟩
    cases hp : romDefined.lookup p with
    | none => exact absurd (by simp [lookupPattern, romRead, hp]) hdef
    | some c =>
      have hc : lookupPattern p = c := by simp [lookupPattern, romRead, hp]
      exact hc ▸ mem_romDefined_of_lookup_eq_some hp

theorem mem_romDefined_of_defined {p : Byte} (h : lookupPattern p ≠ undef) : (p, lookupPattern p) ∈ romDefined :=
  mem_romDefined_iff.mpr ⟨rfl, h⟩

theorem lookupPattern_ne_undef_iff {p : Byte} : lookupPattern p ≠ undef ↔ p ∈ romDefined.map Prod.fst := by
  constructor
  · exact fun h => List.mem_map_of_mem (mem_romDefined_of_defined h)
  · intro h
    obtain ⟨e, he, rfl⟩ := List.mem_map.mp h
    exact lookupPattern_of_mem e he ▸ code_ne_undef_of_mem e he

/-- Settles O13: the positions of the source are the worths of the codes, entry by entry. -/
theorem romHoldsTheTable : Obligations.RomHoldsTheTable := by
  unfold Obligations.RomHoldsTheTable
  intro table
  have htable : table = romDefined.map fun e => (e.1, sext8 e.2) := by decide
  have hkeys : table.map Prod.fst = romDefined.map Prod.fst := by rw [htable, List.map_map]; rfl
  refine ⟨fun row hrow => ?_, fun p hp => ?_⟩
  · rw [htable] at hrow
    obtain ⟨e, he, rfl⟩ := List.mem_map.mp hrow
    rw [lookupPattern_of_mem e he]
    exact ⟨rfl, code_ne_undef_of_mem e he⟩
  · rw [hkeys, ← lookupPattern_ne_undef_iff] at hp
    exact not_not.mp hp

/-! The mirror (R124). -/

theorem rev_rev (p : Byte) : rev (rev p) = p :=
  pattern_ext fun i => by rw [rev_getLsbD, rev_getLsbD, Fin.rev_rev]

theorem sext8_eq_toInt (c : Byte) : sext8 c = c.toInt := by
  rw [sext8, BitVec.toInt_eq_toNat_cond]
  split <;> split <;> omega

/-- Every code but UNDEF has a negative among the codes. -/
theorem sext8_neg {c : Byte} (h : c ≠ undef) : sext8 (-c) = -sext8 c := by
  rw [sext8_eq_toInt, sext8_eq_toInt, BitVec.toInt_neg_of_ne_intMin h]

theorem mirror_mem_romDefined : ∀ e ∈ romDefined, (rev e.1, -e.2) ∈ romDefined :=
  List.all_iff_forall_prop.mp (by decide)

theorem eq_of_mem_of_rev_eq : ∀ e ∈ romDefined, rev e.1 = e.1 → e.1 = 0x18 :=
  List.all_iff_forall_prop.mp (by decide)

theorem lookupPattern_rev {p : Byte} (h : lookupPattern p ≠ undef) :
    lookupPattern (rev p) = -lookupPattern p ∧ lookupPattern (rev p) ≠ undef := by
  obtain ⟨hcode, hdef⟩ := mem_romDefined_iff.mp (mirror_mem_romDefined _ (mem_romDefined_of_defined h))
  exact ⟨hcode, hcode ▸ hdef⟩

theorem lookupPattern_rev_ne_undef_iff {p : Byte} : lookupPattern (rev p) ≠ undef ↔ lookupPattern p ≠ undef :=
  ⟨fun h => rev_rev p ▸ (lookupPattern_rev h).2, fun h => (lookupPattern_rev h).2⟩

theorem lookupPattern_0x18 : lookupPattern 0x18 = 0x00 := lookupPattern_of_mem (0x18, 0x00) (by decide)

/-- Settles O14: the mirror of an entry is the entry with the negated code. -/
theorem lookupMirrorAntisymmetry : Obligations.LookupMirrorAntisymmetry := by
  refine fun p => ⟨not_iff_not.mp lookupPattern_rev_ne_undef_iff, fun h => ?_, ⟨fun ⟨h, hrev⟩ => ?_, ?_⟩, ?_⟩
  · rw [(lookupPattern_rev h).1, sext8_neg h]
  · exact eq_of_mem_of_rev_eq _ (mem_romDefined_of_defined h) hrev
  · rintro rfl
    exact ⟨by rw [lookupPattern_0x18]; decide, by decide⟩
  · rw [lookupPattern_0x18]
    rfl

/-! The defined set (R125). -/

/-- The pattern whose 1 bits are the run of `k` bits from bit `j` up. -/
def runPattern (k j : Nat) : Byte := BitVec.ofNat 8 ((2 ^ k - 1) * 2 ^ j)

/-- A key is a run of at most 3 bits, or one of the two runs of 4 at an edge. -/
theorem keys_are_runs : ∀ p ∈ romDefined.map Prod.fst,
    (∃ k ∈ [1, 2, 3], ∃ j ∈ List.range 8, j + k ≤ 8 ∧ p.toNat = (2 ^ k - 1) * 2 ^ j) ∨ p = 0xF0 ∨ p = 0x0F := by
  decide

theorem runPattern_mem_keys : ∀ k ∈ [1, 2, 3], ∀ j ∈ List.range 8, j + k ≤ 8 →
    runPattern k j ∈ romDefined.map Prod.fst := by decide

theorem edgeRuns_mem_keys : (0xF0 : Byte) ∈ romDefined.map Prod.fst ∧ (0x0F : Byte) ∈ romDefined.map Prod.fst := by
  decide

/-- Settles O15: the keys of the table are the runs it names, both ways. -/
theorem definedPatternsAreShortRuns : Obligations.DefinedPatternsAreShortRuns := by
  intro p
  rw [lookupPattern_ne_undef_iff]
  refine ⟨keys_are_runs p, ?_⟩
  rintro (⟨k, hk, j, hj, hfit, hp⟩ | rfl | rfl)
  · have hrun : p = runPattern k j := by rw [runPattern, ← hp, BitVec.ofNat_toNat, BitVec.setWidth_eq]
    exact hrun ▸ runPattern_mem_keys k hk j hj hfit
  · exact edgeRuns_mem_keys.1
  · exact edgeRuns_mem_keys.2

/-! Values, signs and the number of keys of each (R126). -/

/-- The entries worth `x` eighths. -/
def entriesWorth (x : Int) : List (Byte × Byte) := romDefined.filter fun e => sext8 e.2 = x

theorem mem_entriesWorth {x : Int} {e : Byte × Byte} : e ∈ entriesWorth x ↔ e ∈ romDefined ∧ sext8 e.2 = x := by
  simp [entriesWorth]

theorem worth_of_entries : ∀ e ∈ romDefined,
    sext8 e.2 ∈ ([0, 2, 3, 4, 5, 6, 7, 8, -2, -3, -4, -5, -6, -7, -8] : List Int) :=
  List.all_iff_forall_prop.mp (by decide)

/-- A key nearer bit 7 than its mirror is a greater number than it. -/
theorem sign_of_entries : ∀ e ∈ romDefined, 0 < sext8 e.2 ↔ (rev e.1).toNat < e.1.toNat :=
  List.all_iff_forall_prop.mp (by decide)

theorem nodup_keys : (romDefined.map fun e => e.1.toNat).Nodup := by decide

theorem nodup_keys_worth (x : Int) : ((entriesWorth x).map fun e => e.1.toNat).Nodup :=
  nodup_keys.sublist (List.filter_sublist.map _)

/-- The patterns whose lookup is worth `x` eighths are the keys of the entries worth it, unless `x` is UNDEF's worth. -/
theorem patterns_worth_perm {x : Int} (hx : x ≠ sext8 undef) :
    ((List.range 256).filter fun n => sext8 (lookupPattern (BitVec.ofNat 8 n)) = x).Perm
      ((entriesWorth x).map fun e => e.1.toNat) := by
  refine (List.perm_ext_iff_of_nodup (List.nodup_range.filter _) (nodup_keys_worth x)).mpr fun n => ?_
  simp only [List.mem_filter, List.mem_range, decide_eq_true_iff, List.mem_map, mem_entriesWorth]
  constructor
  · rintro ⟨hn, hworth⟩
    have hdef : lookupPattern (BitVec.ofNat 8 n) ≠ undef := fun h => hx (by rw [← hworth, h])
    exact ⟨_, ⟨mem_romDefined_of_defined hdef, hworth⟩, Nat.mod_eq_of_lt hn⟩
  · rintro ⟨e, ⟨he, hworth⟩, rfl⟩
    refine ⟨e.1.isLt, ?_⟩
    rw [BitVec.ofNat_toNat, BitVec.setWidth_eq, lookupPattern_of_mem e he, hworth]

theorem length_patterns_worth {x : Int} {k : Nat} (hx : x ≠ -128) (hk : (entriesWorth x).length = k) :
    ((List.range 256).filter fun n => sext8 (lookupPattern (BitVec.ofNat 8 n)) = x).length = k := by
  rw [(patterns_worth_perm (sext8_undef ▸ hx)).length_eq, List.length_map, hk]

theorem one_entry_worth : ∀ x ∈ ([0, 3, -3, 7, -7, 8, -8] : List Int), x ≠ -128 ∧ (entriesWorth x).length = 1 := by
  decide

theorem two_entries_worth : ∀ x ∈ ([2, -2, 4, -4, 5, -5, 6, -6] : List Int),
    x ≠ -128 ∧ (entriesWorth x).length = 2 := by decide

theorem position_lookupPattern_of_mem {p c : Byte} {n : Int} (h : (p, c) ∈ romDefined) (hn : sext8 c = n) :
    position (lookupPattern p) = some ((n : ℚ) / 8) := by
  rw [lookupPattern_of_mem _ h]
  exact position_of_sext8 (code_ne_undef_of_mem _ h) hn

theorem position_lookupPattern_0x80 : position (lookupPattern 0x80) = some 1 := by
  rw [position_lookupPattern_of_mem (c := 0x08) (n := 8) (by decide) (by decide)]
  norm_num

theorem position_lookupPattern_0x01 : position (lookupPattern 0x01) = some (-1) := by
  rw [position_lookupPattern_of_mem (c := 0xF8) (n := -8) (by decide) (by decide)]
  norm_num

/-- Settles O16: positions and signs are those of the entries, and a position's patterns are its entries' keys. -/
theorem lookupValuesAndSigns : Obligations.LookupValuesAndSigns := by
  refine ⟨fun p hp => ?_, position_lookupPattern_0x80, position_lookupPattern_0x01, fun x hx => ?_, fun x hx => ?_⟩
  · have he := mem_romDefined_of_defined hp
    exact ⟨worth_of_entries _ he, sign_of_entries _ he⟩
  · obtain ⟨hne, hlen⟩ := one_entry_worth x hx
    exact length_patterns_worth hne hlen
  · obtain ⟨hne, hlen⟩ := two_entries_worth x hx
    exact length_patterns_worth hne hlen

end Sys2Proof.Machine
end

section
/-! The proofs of the statements on the tracker (42_tracker.md). `latchAfter` is the latch as a fold over the events of
a run; its two laws, the closed form of R148 and the hysteresis of R147, are facts about lists of events, and `observe`
is tied to it one edge at a time. -/

namespace Sys2Proof.Machine

/-! Resolve (R140, R142). -/

/-- Settles O27: `Resolve` returns the resolved code and writes that code to the latch, by the definition of each. -/
theorem resolveFallsBackToTheLatch : Obligations.ResolveFallsBackToTheLatch := by
  intro s p
  rw [State.resolve_fst, State.resolve_snd]
  exact ⟨rfl, rfl⟩

theorem resolvedCode_ne_undef {last : Byte} (p : Byte) (h : last ≠ undef) : resolvedCode last p ≠ undef := by
  by_cases hp : lookupPattern p = undef
  · rwa [resolvedCode_of_undef hp]
  · rwa [resolvedCode_of_defined hp]

/-- Settles O40: whatever a step does to the latch, a reset, nothing or a resolution, leaves no UNDEF there. -/
theorem latchNeverBecomesUndef : Obligations.LatchNeverBecomesUndef := by
  refine ⟨fun s p hs => ?_, fun s t hs h => ?_⟩
  · rw [State.resolve_fst]
    exact resolvedCode_ne_undef p hs
  · rcases step_lastPos h with ⟨-, ht⟩ | ht | ⟨p, ht⟩
    · rw [ht]; decide
    · rwa [ht]
    · rw [ht]; exact resolvedCode_ne_undef p hs

/-! The latch over events. -/

/-- What an event leaves in the latch: a reset 0x00 (R24), a tracking event the resolved code of its pattern (R140),
every other event what was there (R141). -/
def latchAfterEvent (w : Nat) (last : Byte) (e : Event) : Byte :=
  if e = .reset then 0x00
  else
    match trackedPattern w e with
    | none => last
    | some p => resolvedCode last p

/-- The latch after a sequence of events, from the latch before it. -/
def latchAfter (w : Nat) : Byte → List Event → Byte := List.foldl (latchAfterEvent w)

section
variable {w : Nat} {last : Byte} {e : Event} {es : List Event}

theorem latchAfterEvent_reset : latchAfterEvent w last .reset = 0x00 := rfl

theorem latchAfterEvent_of_untracked (hne : e ≠ .reset) (h : trackedPattern w e = none) :
    latchAfterEvent w last e = last := by
  simp [latchAfterEvent, hne, h]

/-- No reset is a tracking event. -/
theorem ne_reset_of_tracked {p : Byte} (h : trackedPattern w e = some p) : e ≠ .reset := by
  rintro rfl
  cases h

theorem latchAfterEvent_of_tracked {p : Byte} (h : trackedPattern w e = some p) :
    latchAfterEvent w last e = resolvedCode last p := by
  simp [latchAfterEvent, ne_reset_of_tracked h, h]

@[simp] theorem latchAfter_nil : latchAfter w last [] = last := rfl

@[simp] theorem latchAfter_cons : latchAfter w last (e :: es) = latchAfter w (latchAfterEvent w last e) es := rfl

theorem latchAfter_append {fs : List Event} :
    latchAfter w last (es ++ fs) = latchAfter w (latchAfter w last es) fs :=
  List.foldl_append

/-! The closed form (R148). -/

theorem sinceReset_of_no_reset (h : Event.reset ∉ es) : sinceReset es = es := by
  cases es with
  | nil => rfl
  | cons e es =>
    rw [List.mem_cons, not_or] at h
    obtain ⟨hne, hes⟩ := h
    simp [sinceReset, hes, Ne.symm hne]

theorem definedLookups_cons_of_untracked (h : trackedPattern w e = none) :
    definedLookups w (e :: es) = definedLookups w es := by
  simp [definedLookups, h]

theorem definedLookups_cons_of_undef {p : Byte} (h : trackedPattern w e = some p) (hp : lookupPattern p = undef) :
    definedLookups w (e :: es) = definedLookups w es := by
  simp [definedLookups, h, isDefined, hp]

theorem definedLookups_cons_of_defined {p : Byte} (h : trackedPattern w e = some p) (hp : lookupPattern p ≠ undef) :
    definedLookups w (e :: es) = lookupPattern p :: definedLookups w es := by
  simp [definedLookups, h, isDefined, hp]

/-- An event that is no reset moves the latch to its own defined lookup, if it has one. -/
theorem getLastD_definedLookups_cons (hne : e ≠ .reset) :
    (definedLookups w (e :: es)).getLastD last = (definedLookups w es).getLastD (latchAfterEvent w last e) := by
  cases htrack : trackedPattern w e with
  | none => rw [definedLookups_cons_of_untracked htrack, latchAfterEvent_of_untracked hne htrack]
  | some p =>
    rw [latchAfterEvent_of_tracked htrack]
    by_cases hp : lookupPattern p = undef
    · rw [definedLookups_cons_of_undef htrack hp, resolvedCode_of_undef hp]
    · rw [definedLookups_cons_of_defined htrack hp, resolvedCode_of_defined hp, List.getLastD_cons]

/-- The latch is the last defined lookup since the last reset. -/
theorem latchAfter_eq_getLastD (w : Nat) (last : Byte) (es : List Event) :
    latchAfter w last es =
      (definedLookups w (sinceReset es)).getLastD (if Event.reset ∈ es then 0x00 else last) := by
  induction es generalizing last with
  | nil => rfl
  | cons e es ih =>
    rw [latchAfter_cons, ih]
    by_cases hlater : Event.reset ∈ es
    · simp [sinceReset, hlater]
    · rw [sinceReset_of_no_reset hlater]
      by_cases hreset : e = .reset
      · subst hreset
        simp [sinceReset, hlater, latchAfterEvent_reset]
      · rw [sinceReset_of_no_reset (List.not_mem_cons_of_ne_of_not_mem (Ne.symm hreset) hlater),
          getLastD_definedLookups_cons hreset]
        simp [hlater, Ne.symm hreset]

/-! Ambiguous frames (R147). -/

/-- An event that is no reset and tracks no pattern with a defined lookup. -/
def ambiguousEvent (w : Nat) (e : Event) : Prop :=
  e ≠ .reset ∧ ∀ r, trackedPattern w e = some r → lookupPattern r = undef

theorem latchAfterEvent_of_ambiguous (h : ambiguousEvent w e) : latchAfterEvent w last e = last := by
  obtain ⟨hne, hundef⟩ := h
  cases htrack : trackedPattern w e with
  | none => exact latchAfterEvent_of_untracked hne htrack
  | some r => rw [latchAfterEvent_of_tracked htrack, resolvedCode_of_undef (hundef r htrack)]

theorem latchAfter_of_ambiguous (h : ∀ g ∈ es, ambiguousEvent w g) : latchAfter w last es = last := by
  induction es with
  | nil => rfl
  | cons e es ih =>
    obtain ⟨he, hes⟩ := List.forall_mem_cons.mp h
    rw [latchAfter_cons, latchAfterEvent_of_ambiguous he, ih hes]

end

/-! What one edge shows at the command level (R29, R39, R141). -/

/-- The event a completion edge shows: the answer of a TRKA, the acceptance of every other word. -/
def State.completionEvent (s : State) : Event :=
  if s.capturedTrka then .answer s.capturedAnswer else .accept s.capWord s.capRd

theorem State.completionEvent_of_trka {s : State} (h : decode s.capWord = .command .trka) :
    s.completionEvent = .answer s.capturedAnswer := by
  simp [completionEvent, capturedTrka, h]

theorem State.completionEvent_of_ne_trka {s : State} (h : decode s.capWord ≠ .command .trka) :
    s.completionEvent = .accept s.capWord s.capRd := by
  simp [completionEvent, capturedTrka, h]

theorem State.completionEvent_ne_reset (s : State) : s.completionEvent ≠ .reset := by
  by_cases h : decode s.capWord = .command .trka
  · rw [completionEvent_of_trka h]; exact nofun
  · rw [completionEvent_of_ne_trka h]; exact nofun

theorem State.nextEvent_of_completes {s : State} (hr : s.pins.rst = false) (hs : s.seq = .exec) (hc : s.cnt = 1) :
    s.nextEvent = some s.completionEvent := by
  simp [nextEvent, completionEvent, hr, hs, hc, apply_ite some]

/-- A completion tracks the pattern of its event, or leaves the latch alone where its event has none. -/
theorem completion_cases (s : State) :
    (trackedPattern s.params.width s.completionEvent = none ∧
        (familyRule (decode s.capWord) s).lastPos = s.lastPos) ∨
      ∃ p, trackedPattern s.params.width s.completionEvent = some p ∧
        familyRule (decode s.capWord) s = s.trackPattern p := by
  by_cases htrka : decode s.capWord = .command .trka
  · rw [State.completionEvent_of_trka htrka, htrka]
    cases herr : s.capErr with
    | true =>
      exact .inl (by simp [State.capturedAnswer, trackedPattern, familyRule, trkaRule, State.respondError, herr])
    | false =>
      exact .inr ⟨binarize s.vector, by
        simp [State.capturedAnswer, trackedPattern, familyRule, trkaRule, herr, State.vector]⟩
  · rw [State.completionEvent_of_ne_trka htrka]
    cases hd : decode s.capWord with
    | illegal e => exact .inl ⟨by simp [trackedPattern, hd], rfl⟩
    | command i =>
      cases i with
      | bin => exact .inl ⟨by simp [trackedPattern, hd], rfl⟩
      | lut p => exact .inl ⟨by simp [trackedPattern, hd], rfl⟩
      | trkp p => exact .inr ⟨p, by simp [trackedPattern, hd], rfl⟩
      | trkv => exact .inr ⟨binarize s.vector, by simp [trackedPattern, hd, State.vector], rfl⟩
      | trka => exact absurd hd htrka

theorem State.response_of_strobe_low {s : State} (h : s.rspValid = false) : s.response = none := by
  simp [response, h]

/-- All that an edge can show of the latch: no event and no change; a reset; an event that tracks nothing; or a tracking
event, whose resolved code goes to the latch and to the response at once. -/
theorem step_event_cases {s t : State} (h : step s = .next t) :
    (s.nextEvent = none ∧ t.lastPos = s.lastPos ∧ t.response = none) ∨
      (s.nextEvent = some .reset ∧ t.lastPos = 0x00) ∨
      (∃ e, s.nextEvent = some e ∧ e ≠ .reset ∧ trackedPattern s.params.width e = none ∧ t.lastPos = s.lastPos) ∨
      ∃ e p, s.nextEvent = some e ∧ trackedPattern s.params.width e = some p ∧
        t.lastPos = resolvedCode s.lastPos p ∧
        t.response = some { status := statusCode .ok, pat := p, pos := t.lastPos } := by
  obtain ⟨u, rfl, hreset | hidle | haccept | hwait | hcomplete | hcount⟩ := step_cases h
  · obtain ⟨hr, rfl⟩ := hreset
    exact .inr (.inl ⟨by simp [State.nextEvent, hr], rfl⟩)
  · obtain ⟨hr, -, hs, hv, rfl⟩ := hidle
    exact .inl ⟨by simp [State.nextEvent, hr, hs, hv], rfl, rfl⟩
  · obtain ⟨hr, -, hs, hv, rfl⟩ := haccept
    by_cases htrka : decode s.pins.cmdWord = .command .trka
    · refine .inr (.inr (.inl ⟨.accept s.pins.cmdWord s.pins.cmdRd, ?_, nofun, ?_, ?_⟩))
      · simp [State.nextEvent, hr, hs, hv, htrka]
      · simp [trackedPattern, htrka]
      · simp [acceptEdge_fields]
    · refine .inl ⟨?_, ?_, State.response_of_strobe_low ?_⟩
      · simp [State.nextEvent, hr, hs, htrka]
      · simp [acceptEdge_fields]
      · simp [acceptEdge_fields]
  · obtain ⟨hr, -, hs, rfl⟩ := hwait
    refine .inl ⟨?_, ?_, State.response_of_strobe_low ?_⟩
    · simp [State.nextEvent, hr, hs]
    · simp [awaitEdge_fields]
    · simp [awaitEdge_fields]
  · obtain ⟨hr, -, hs, hc, rfl⟩ := hcomplete
    have hevent := State.nextEvent_of_completes hr hs hc
    rcases completion_cases s with ⟨htrack, hlast⟩ | ⟨p, htrack, hrule⟩
    · exact .inr (.inr (.inl ⟨_, hevent, s.completionEvent_ne_reset, htrack, hlast⟩))
    · rw [hrule]
      exact .inr (.inr (.inr ⟨_, p, hevent, htrack, rfl, rfl⟩))
  · obtain ⟨hr, -, hs, hc, rfl⟩ := hcount
    exact .inl ⟨by simp [State.nextEvent, hr, hs, Nat.ne_of_gt hc], rfl, rfl⟩

/-- No step changes the parameters (R11). -/
theorem step_params {s t : State} (h : step s = .next t) : t.params = s.params := by
  obtain ⟨u, rfl, hreset | hidle | haccept | hwait | hcomplete | hcount⟩ := step_cases h
  · obtain ⟨-, rfl⟩ := hreset
    rfl
  · obtain ⟨-, -, -, -, rfl⟩ := hidle
    rfl
  · obtain ⟨-, -, -, -, rfl⟩ := haccept
    simp [acceptEdge_fields]
  · obtain ⟨-, -, -, rfl⟩ := hwait
    simp [awaitEdge_fields]
  · obtain ⟨-, -, -, -, rfl⟩ := hcomplete
    simp [familyRule_fields]
  · obtain ⟨-, -, -, -, rfl⟩ := hcount
    rfl

/-- An edge moves the latch as its event does. -/
theorem step_lastPos_eq_latchAfter {s t : State} (h : step s = .next t) :
    t.lastPos = latchAfter s.params.width s.lastPos s.nextEvent.toList := by
  rcases step_event_cases h with ⟨he, ht, -⟩ | ⟨he, ht⟩ | ⟨e, he, hne, htrack, ht⟩ | ⟨e, p, he, htrack, ht, -⟩
  · rw [he, ht]; rfl
  · rw [he, ht]; rfl
  · simp [he, ht, latchAfterEvent_of_untracked hne htrack]
  · simp [he, ht, latchAfterEvent_of_tracked htrack]

/-- An edge that shows a tracking event shows its response, with the code it leaves in the latch (R141). -/
theorem step_response_of_tracked {s t : State} {e : Event} {p : Byte} (h : step s = .next t) (he : s.nextEvent = some e)
    (hp : trackedPattern s.params.width e = some p) :
    t.response = some { status := statusCode .ok, pat := p, pos := t.lastPos } := by
  rcases step_event_cases h with ⟨he', -⟩ | ⟨he', -⟩ | ⟨e', he', -, htrack, -⟩ | ⟨e', p', he', htrack, -, hresp⟩
  · cases he.symm.trans he'
  · cases he.symm.trans he'
    cases hp
  · cases he.symm.trans he'
    cases hp.symm.trans htrack
  · cases he.symm.trans he'
    cases hp.symm.trans htrack
    exact hresp

/-- An edge that shows no event shows no response. -/
theorem step_response_of_no_event {s t : State} (h : step s = .next t) (he : s.nextEvent = none) :
    t.response = none := by
  rcases step_event_cases h with ⟨-, -, hresp⟩ | ⟨he', -⟩ | ⟨e, he', -⟩ | ⟨e, p, he', -⟩
  · exact hresp
  · cases he.symm.trans he'
  · cases he.symm.trans he'
  · cases he.symm.trans he'

/-! What a run shows, one edge at a time. -/

/-- A run of no edges shows nothing. -/
theorem observe_zero {s t : State} {es : List Event} {rs : List Response} (h : observe 0 s = some (es, rs, t)) :
    es = [] ∧ rs = [] ∧ t = s := by
  cases h
  exact ⟨rfl, rfl, rfl⟩

/-- What a run of `k + 1` edges shows is what its first edge shows and then what the other `k` show. -/
theorem observe_succ {k : Nat} {s t : State} {es : List Event} {rs : List Response}
    (h : observe (k + 1) s = some (es, rs, t)) :
    ∃ u es' rs', step s = .next u ∧ observe k u = some (es', rs', t) ∧ es = s.nextEvent.toList ++ es' ∧
      rs = u.response.toList ++ rs' := by
  unfold observe at h
  split at h
  · next u hu =>
    split at h
    · cases h
    · next es' rs' v hv =>
      cases h
      exact ⟨u, es', rs', hu, hv, rfl, rfl⟩
  · cases h
  · cases h

/-- A run moves the latch as its events do. -/
theorem observe_lastPos {k : Nat} {s t : State} {es : List Event} {rs : List Response}
    (h : observe k s = some (es, rs, t)) : t.lastPos = latchAfter s.params.width s.lastPos es := by
  induction k generalizing s es rs with
  | zero =>
    obtain ⟨rfl, -, rfl⟩ := observe_zero h
    rfl
  | succ k ih =>
    obtain ⟨u, es', rs', hstep, hrest, rfl, -⟩ := observe_succ h
    rw [ih hrest, step_params hstep, step_lastPos_eq_latchAfter hstep, latchAfter_append]

/-- A run that shows no event shows no response. -/
theorem observe_responses_of_no_events {k : Nat} {s t : State} {rs : List Response}
    (h : observe k s = some ([], rs, t)) : rs = [] := by
  induction k generalizing s rs with
  | zero =>
    obtain ⟨-, rfl, -⟩ := observe_zero h
    rfl
  | succ k ih =>
    obtain ⟨u, es', rs', hstep, hrest, hes, rfl⟩ := observe_succ h
    obtain ⟨hevent, rfl⟩ := List.append_eq_nil_iff.mp hes.symm
    rw [step_response_of_no_event hstep (Option.toList_eq_nil_iff.mp hevent), ih hrest]
    rfl

theorem getLast?_optionToList {α : Type} (o : Option α) : o.toList.getLast? = o := by
  cases o with
  | none => rfl
  | some a => rfl

/-- If the last event of a run is a tracking event, its response is the run's last, with the code the run leaves in the
latch. -/
theorem observe_last_response {k : Nat} {s t : State} {es : List Event} {rs : List Response} {f : Event} {q : Byte}
    (h : observe k s = some (es, rs, t)) (hf : es.getLast? = some f)
    (hq : trackedPattern s.params.width f = some q) :
    rs.getLast? = some { status := statusCode .ok, pat := q, pos := t.lastPos } := by
  induction k generalizing s es rs with
  | zero =>
    obtain ⟨rfl, -, -⟩ := observe_zero h
    cases hf
  | succ k ih =>
    obtain ⟨u, es', rs', hstep, hrest, rfl, rfl⟩ := observe_succ h
    rw [List.getLast?_append] at hf ⊢
    cases hlast : es'.getLast? with
    | some g =>
      rw [hlast] at hf
      rw [ih hrest (hlast.trans hf) (step_params hstep ▸ hq)]
      rfl
    | none =>
      obtain rfl := List.getLast?_eq_none_iff.mp hlast
      obtain rfl := observe_responses_of_no_events hrest
      have hevent : s.nextEvent = some f := by simpa [getLast?_optionToList] using hf
      rw [step_response_of_tracked hstep hevent hq, observe_lastPos hrest]
      rfl

/-- Settles O50: a run moves the latch as its events do, and over events the latch has the closed form. -/
theorem latchClosedForm : Obligations.LatchClosedForm := by
  intro k s t es rs _ h
  rw [observe_lastPos h, latchAfter_eq_getLastD]

/-- Settles O51: the first event puts its lookup into the latch, none of the ambiguous events after it moves the latch,
and the last of them responds what the latch holds. -/
theorem latchHoldsThroughAmbiguousFrames : Obligations.LatchHoldsThroughAmbiguousFrames := by
  intro k s t e f es rs p q _ h he hp hes hf hq
  have hfirst : latchAfterEvent s.params.width s.lastPos e = lookupPattern p := by
    rw [latchAfterEvent_of_tracked he, resolvedCode_of_defined hp]
  have hlast : ambiguousEvent s.params.width f :=
    ⟨ne_reset_of_tracked hf, fun r hr => by cases hf.symm.trans hr; exact hq⟩
  have hheld : ∀ g ∈ es ++ [f], ambiguousEvent s.params.width g :=
    List.forall_mem_append.mpr ⟨hes, List.forall_mem_singleton.mpr hlast⟩
  have hlatch : t.lastPos = lookupPattern p := by
    rw [observe_lastPos h, List.cons_append, latchAfter_cons, hfirst, latchAfter_of_ambiguous hheld]
  refine ⟨hlatch, ?_⟩
  rw [observe_last_response h List.getLast?_concat hf, hlatch]
  rfl

end Sys2Proof.Machine
end

section
/-! The proof of the statement on illegal words (60_exceptions.md): the sequencer takes one through EXEC like a command
that needs no acquisition, and its completion answers ILLEGAL. -/

namespace Sys2Proof.Machine

theorem State.standingAfter_of_accepting {s : State} (h : s.accepting = true) : s.standingAfter = none := by
  simp [State.standingAfter, h]

theorem decode_ne_trka_of_illegal {w : CmdWord} {e : IllegalWord} (h : decode w = .illegal e) :
    decode w ≠ .command .trka := by
  simp [h]

/-- A word that asks for no acquisition goes to EXEC: the whole state after its acceptance (R27, R28). -/
theorem State.accepted_of_ne_trka {s : State} (ha : s.accepting = true) (hw : decode s.pins.cmdWord ≠ .command .trka) :
    s.accepted = { s with
      seq := .exec, cnt := s.params.latExec, capWord := s.pins.cmdWord, capRd := s.pins.cmdRd, rspValid := false
      inputs := s.inputs.tail, standing := none } := by
  rw [State.accepted, decide_eq_false hw, State.tickFrom, State.standingAfter_of_accepting ha]
  rfl

/-- The completion of an illegal word writes the response registers and SEQ only, whatever makes the word illegal
(R171). -/
theorem familyRule_illegal_goIdle (e : IllegalWord) (s : State) :
    (familyRule (.illegal e) s).goIdle =
      { s with seq := .idle, rspStatus := 0b01, rspPat := 0x00, rspPos := 0x80, rspValid := true } := rfl

/-- Settles O31: an illegal word is no TRKA, so its acceptance goes to EXEC, and there its family rule completes it. -/
theorem illegalWordCompletes : Obligations.IllegalWordCompletes := by
  refine ⟨fun s e hs hr ho hv hw => ?acceptance, fun s e ⟨hs, hc⟩ hr ho hw => ?completion⟩
  case acceptance =>
    have haccepting : s.accepting = true := State.accepting_iff.mpr ⟨hv, hs, hr⟩
    rw [step_of_accept hr ho hs hv, State.accepted_of_ne_trka haccepting (decode_ne_trka_of_illegal hw)]
  case completion =>
    rw [step_of_complete hr ho hs hc, hw, familyRule_illegal_goIdle]
    rfl

end Sys2Proof.Machine
end

section
/-! The proofs of the statements on reset and hazards (70_reset_and_hazards.md). The LC has no timeout: an edge in
WAIT_ACQ that brings neither an answer nor a reset leaves the wait as it was, and so does any number of them. -/

namespace Sys2Proof.Machine

/-- What holds of the coming `k + 1` cycles holds of the next one and of the `k` after it; cycles past the end of the
list are quiet. -/
theorem headD_and_forall_take_tail {P : Pins → Prop} (hquiet : P Pins.quiet) {k : Nat} {cycles : List Pins}
    (h : ∀ q ∈ cycles.take (k + 1), P q) : P (cycles.headD Pins.quiet) ∧ ∀ q ∈ cycles.tail.take k, P q := by
  cases cycles with
  | nil => exact ⟨hquiet, by simp⟩
  | cons p ps => exact List.forall_mem_cons.mp h

theorem State.offerChanged_of_no_offer {s : State} (h : s.pins.cmdValid = false) : s.offerChanged = false := by
  unfold State.offerChanged
  split
  · rfl
  · rw [h, Bool.false_and]

/-- A waiting LC is busy and not ready (R35). -/
theorem State.outputs_of_waitAcq {s : State} (h : s.seq = .waitAcq) :
    s.outputs.busy = true ∧ s.outputs.cmdReady = false := by
  simp [State.outputs, State.busy, State.cmdReady, h]

/-- Without an answer an edge in WAIT_ACQ only drops the strobe (R27, R209). -/
theorem State.awaitEdge_of_no_answer {s : State} (h : s.pins.acqDone = false) : s.awaitEdge = s.dropStrobe := by
  simp [State.awaitEdge, h]

section
variable {s t : State} (hs : s.seq = .waitAcq) (hr : s.pins.rst = false) (hd : s.pins.acqDone = false)
include hs hr hd

/-- The next state of a wait that gets neither an answer nor a reset, where the host keeps its offer. -/
theorem step_of_unanswered (ho : s.offerChanged = false) : step s = .next (s.dropStrobe.tickFrom s) := by
  rw [step_of_waitAcq hr ho hs, State.awaitEdge_of_no_answer hd]

/-- There is no other next state: where the host changes its offer there is none. -/
theorem eq_of_step_unanswered (h : step s = .next t) : t = s.dropStrobe.tickFrom s := by
  cases ho : s.offerChanged with
  | true => cases (step_of_offerChanged hr ho).symm.trans h
  | false => cases (step_of_unanswered hs hr hd ho).symm.trans h; rfl

end

/-- A run of unanswered edges ends in the wait it began in, with the latch it began with (R209). -/
theorem reaches_of_unanswered {k : Nat} {s t : State} (hs : s.seq = .waitAcq)
    (hcycles : ∀ q ∈ s.inputs.take k, q.rst = false ∧ q.acqDone = false) (h : reaches k s t) :
    t.seq = .waitAcq ∧ t.lastPos = s.lastPos := by
  induction k generalizing s with
  | zero =>
    obtain rfl := reaches_zero.mp h
    exact ⟨hs, rfl⟩
  | succ k ih =>
    obtain ⟨u, hstep, hrest⟩ := reaches_succ.mp h
    obtain ⟨⟨hr, hd⟩, hlater⟩ := headD_and_forall_take_tail ⟨rfl, rfl⟩ hcycles
    obtain rfl := eq_of_step_unanswered hs hr hd hstep
    exact ih (s := s.dropStrobe.tickFrom s) hs hlater hrest

/-- While the host offers nothing, unanswered edges go on. -/
theorem exists_reaches_of_unanswered {k : Nat} {s : State} (hs : s.seq = .waitAcq)
    (hcycles : ∀ q ∈ s.inputs.take k, q.rst = false ∧ q.acqDone = false)
    (hquiet : ∀ q ∈ s.inputs.take k, q.cmdValid = false) : ∃ t, reaches k s t := by
  induction k generalizing s with
  | zero => exact ⟨s, reaches_zero.mpr rfl⟩
  | succ k ih =>
    obtain ⟨⟨hr, hd⟩, hcycles'⟩ := headD_and_forall_take_tail ⟨rfl, rfl⟩ hcycles
    obtain ⟨hv, hquiet'⟩ := headD_and_forall_take_tail (P := fun q => q.cmdValid = false) rfl hquiet
    obtain ⟨t, ht⟩ := ih (s := s.dropStrobe.tickFrom s) hs hcycles' hquiet'
    have hstep := step_of_unanswered hs hr hd (State.offerChanged_of_no_offer hv)
    exact ⟨t, reaches_succ.mpr ⟨_, hstep, ht⟩⟩

/-- Settles O44: any number of unanswered edges keeps the wait, and in the wait the ports show busy and not ready. -/
theorem unansweredTrkaWaitsForEver : Obligations.UnansweredTrkaWaitsForEver := by
  refine fun k s hs hcycles => ⟨fun t h => ?_, exists_reaches_of_unanswered hs hcycles⟩
  obtain ⟨hwait, hlast⟩ := reaches_of_unanswered hs hcycles h
  obtain ⟨hbusy, hready⟩ := State.outputs_of_waitAcq hwait
  exact ⟨hwait, hbusy, hready, hlast⟩

end Sys2Proof.Machine
end

section
/-! The proofs of the statements on command words (30_encoding.md): a word of RSVD 0 is its OP and its PAT packed, so
the decoder and the encoder undo each other field by field, and the number a word writes is the number of its fields. -/

namespace Sys2Proof

/-! The encoder and the decoder, one after the other (R70, R81). -/

/-- The decoder gives back what the encoder was given. -/
theorem decode_encode (i : Instr) : decode (encode i) = .command i := by
  cases i with
  | bin => exact decode_packWord 0 0
  | lut p => exact decode_packWord 1 p
  | trkp p => exact decode_packWord 2 p
  | trkv => exact decode_packWord 3 0
  | trka => exact decode_packWord 4 0

theorem encode_bin : encode .bin = 0x0000 := by decide
theorem encode_trkv : encode .trkv = 0x0300 := by decide
theorem encode_trka : encode .trka = 0x0400 := by decide

/-- Settles O1: the fields of a packed word are the OP and the PAT it was packed from, and each OP selects its own
command. -/
theorem decodeUndoesEncode : Obligations.DecodeUndoesEncode := fun i _ => decode_encode i

/-- A word without reserved bits is its OP and its PAT, packed. -/
theorem packWord_of_rsvd {w : CmdWord} (h : fieldRsvd w = 0) : packWord (fieldOp w) (fieldPat w) = w := by
  apply BitVec.eq_of_getLsbD_eq
  intro i hi
  obtain hlow | hmid | hhigh : i < 8 ∨ (8 ≤ i ∧ i < 11) ∨ 11 ≤ i := by omega
  · simp [packWord, fieldOp, fieldPat, hlow, hi]
  · simp [packWord, fieldOp, fieldPat, hi, show ¬ i < 8 by omega, show i - 8 < 3 by omega,
      show 8 + (i - 8) = i by omega]
  · have hbit : (fieldRsvd w).getLsbD (i - 11) = false := by simp [h]
    have hrsvd : w[i] = false := by
      simpa [fieldRsvd, hi, show i - 11 < 5 by omega, show 11 + (i - 11) = i by omega] using hbit
    simp [packWord, fieldOp, fieldPat, hi, hrsvd, show ¬ i < 8 by omega, show ¬ i - 8 < 3 by omega]

/-- Clearing bits 7:0 of a packed word packs PAT 0. -/
theorem packWord_and_upperByteMask (op : BitVec 3) (pat : Byte) : packWord op pat &&& 0xFF00 = packWord op 0 := by
  apply BitVec.eq_of_getLsbD_eq
  intro i hi
  rw [BitVec.getLsbD_and, getLsbD_upperByteMask i hi]
  by_cases hlow : i < 8
  · simp [packWord, hlow]
  · simp [packWord, hlow, Nat.le_of_not_lt hlow]

theorem decode_eq_command {w : CmdWord} {i : Instr} (h : decode w = .command i) :
    fieldRsvd w = 0 ∧ selectOp (fieldOp w) (fieldPat w) = .command i := by
  by_cases hr : fieldRsvd w = 0
  · exact ⟨hr, (decode_of_rsvd hr).symm.trans h⟩
  · cases (decode_of_rsvd_ne hr).symm.trans h

/-- The OP that selects a command is the one its encoding packs, with 0 for a PAT the command ignores. -/
theorem encode_of_selectOp {op : BitVec 3} {pat : Byte} {i : Instr} (h : selectOp op pat = .command i) :
    encode i = packWord op (if (Decoded.command i).IgnoresPat then 0 else pat) := by
  have hop (n : Nat) (hn : op.toNat = n) : op = BitVec.ofNat 3 n := by rw [← hn, BitVec.ofNat_toNat, BitVec.setWidth_eq]
  unfold selectOp at h
  split at h
  case h_6 => cases h
  all_goals
    next hn =>
    cases h
    rw [hop _ hn]
    simp [encode, Decoded.IgnoresPat]

/-- Settles O2: a decoded word has RSVD 0, so it is its OP and its PAT packed; where the command ignores PAT, the mask
clears it. -/
theorem encodeRebuildsDecodedWord : Obligations.EncodeRebuildsDecodedWord := by
  intro w i h
  obtain ⟨hr, hselect⟩ := decode_eq_command h
  have hw := packWord_of_rsvd hr
  have hmask : packWord (fieldOp w) 0 = w &&& 0xFF00 := by rw [← packWord_and_upperByteMask _ (fieldPat w), hw]
  rw [encode_of_selectOp hselect]
  cases i with
  | bin => exact hmask
  | lut p => exact hw
  | trkp p => exact hw
  | trkv => exact hmask
  | trka => exact hmask

/-! The ranges of words (R80). -/

/-- The number a word writes, by its fields (R70). -/
theorem toNat_eq_fields (w : CmdWord) :
    w.toNat = 0x800 * (fieldRsvd w).toNat + 0x100 * (fieldOp w).toNat + (fieldPat w).toNat := by
  have hw := w.isLt
  simp only [fieldRsvd, fieldOp, fieldPat, BitVec.extractLsb'_toNat, Nat.shiftRight_eq_div_pow]
  omega

/-- A word with reserved bits lies beyond every command. -/
theorem le_toNat_of_rsvd_ne {w : CmdWord} (h : fieldRsvd w ≠ 0) : 0x800 ≤ w.toNat := by
  have hpos : (fieldRsvd w).toNat ≠ 0 := fun h0 => h (BitVec.eq_of_toNat_eq h0)
  have := toNat_eq_fields w
  omega

/-- Which OP selects which command, and which select none (R71). -/
theorem selectOp_iff (op : BitVec 3) (pat : Byte) :
    (selectOp op pat = .command .bin ↔ op.toNat = 0) ∧
      (∀ p, selectOp op pat = .command (.lut p) ↔ op.toNat = 1 ∧ pat.toNat = p.toNat) ∧
      (∀ p, selectOp op pat = .command (.trkp p) ↔ op.toNat = 2 ∧ pat.toNat = p.toNat) ∧
      (selectOp op pat = .command .trkv ↔ op.toNat = 3) ∧ (selectOp op pat = .command .trka ↔ op.toNat = 4) ∧
      ((∃ e, selectOp op pat = .illegal e) ↔ 5 ≤ op.toNat) := by
  unfold selectOp
  split
  case h_6 h0 h1 h2 h3 h4 =>
    have hge : 5 ≤ op.toNat := by grind
    simp [show op.toNat ≠ 0 by omega, show op.toNat ≠ 1 by omega, show op.toNat ≠ 2 by omega,
      show op.toNat ≠ 3 by omega, show op.toNat ≠ 4 by omega, hge]
  all_goals
    next hop => simp [hop, BitVec.toNat_inj]

/-- Settles O3: without reserved bits OP is the upper byte of the word, so that each command has the words of one upper
byte, its PAT the lower one; with reserved bits the word is illegal and lies above them all. -/
theorem wordsDecodeByRange : Obligations.WordsDecodeByRange := by
  intro w
  by_cases hr : fieldRsvd w = 0
  · have hw : w.toNat = 0x100 * (fieldOp w).toNat + (fieldPat w).toNat := by simpa [hr] using toNat_eq_fields w
    have hpat := (fieldPat w).isLt
    obtain ⟨hbin, hlut, htrkp, htrkv, htrka, hillegal⟩ := selectOp_iff (fieldOp w) (fieldPat w)
    rw [decode_of_rsvd hr]
    refine ⟨hbin.trans ?_, fun p => (hlut p).trans ?_, fun p => (htrkp p).trans ?_, htrkv.trans ?_, htrka.trans ?_,
      hillegal.trans ?_⟩
    case refine_2 | refine_3 => have := p.isLt; omega
    all_goals omega
  · have hle := le_toNat_of_rsvd_ne hr
    rw [decode_of_rsvd_ne hr]
    refine ⟨?_, fun p => ?_, fun p => ?_, ?_, ?_, ?_⟩
    all_goals simp
    all_goals omega

/-- Settles O4: the eight words, decoded by evaluation. -/
theorem sampleWordsDecode : Obligations.SampleWordsDecode := by
  unfold Obligations.SampleWordsDecode
  decide

end Sys2Proof
end

section
/-! The proofs of the statements on the assembler (30_encoding.md section 4): one check per kind of operand, passed or
failed. -/

namespace Sys2Proof.Machine

theorem withVector_of_vectorOk {w : Nat} {codes : List Nat} (h : WellFormed.vectorOk w codes = true) (word : CmdWord) :
    withVector w codes word = .move (.offer { word := word, rd := busOf w (vectorOfList codes) }) := by
  obtain ⟨hcount, hcodes⟩ := Bool.and_eq_true_iff.mp h
  rw [withVector, if_pos hcount, if_pos hcodes]

theorem withVector_of_not_vectorOk {w : Nat} {codes : List Nat} (h : WellFormed.vectorOk w codes = false)
    (word : CmdWord) : ∃ e, withVector w codes word = .error e := by
  unfold withVector
  split
  · next hcount =>
    split
    · next hcodes => simp [WellFormed.vectorOk, hcount, hcodes] at h
    · exact ⟨_, rfl⟩
  · exact ⟨_, rfl⟩

theorem withPattern_toNat (p : Byte) (i : Byte → Instr) :
    withPattern p.toNat i = .move (.offer { word := encode (i p), rd := 0 }) := by
  have hp : WellFormed.patternOk p.toNat = true := decide_eq_true p.isLt
  rw [withPattern, if_pos hp, BitVec.ofNat_toNat, BitVec.setWidth_eq]

theorem withPattern_of_lt {p : Nat} (h : 255 < p) (i : Byte → Instr) : ∃ e, withPattern p i = .error e := by
  have hp : ¬ WellFormed.patternOk p = true := by simp [WellFormed.patternOk]; omega
  exact ⟨_, if_neg hp⟩

/-- The codes of a well-formed vector fit their slices of the bus. -/
theorem vectorOfList_lt {w : Nat} {codes : List Nat} (h : WellFormed.vectorOk w codes = true) (i : Fin 8) :
    vectorOfList codes i < 2 ^ w := by
  obtain ⟨hcount, hcodes⟩ := Bool.and_eq_true_iff.mp h
  have hlen : codes.length = 8 := of_decide_eq_true hcount
  have hi : i.val < codes.length := by omega
  have hcode := List.all_eq_true.mp hcodes codes[i.val] (List.getElem_mem hi)
  rw [vectorOfList, List.getD_eq_getElem _ _ hi]
  exact of_decide_eq_true hcode

/-- Settles O57: each line hands its operand to the one check of its kind. -/
theorem assemblerRefusesMalformedOperands : Obligations.AssemblerRefusesMalformedOperands := by
  refine fun w => ⟨fun codes h => ⟨?vector, fun word => ?cmdWith⟩, fun p h => ?pattern⟩
  case vector =>
    simp only [List.forall_mem_cons, List.not_mem_nil, false_imp_iff, implies_true, and_true]
    exact ⟨withVector_of_not_vectorOk h _, withVector_of_not_vectorOk h _, withVector_of_not_vectorOk h _⟩
  case cmdWith =>
    rw [assemble]
    split
    · exact withVector_of_not_vectorOk h _
    · exact ⟨_, rfl⟩
  case pattern =>
    simp only [List.forall_mem_cons, List.not_mem_nil, false_imp_iff, implies_true, and_true]
    exact ⟨withPattern_of_lt h _, withPattern_of_lt h _, withPattern_of_lt h _⟩

/-- Settles O58: the word is the command's encoding, which decodes to the command, and the channels of the bus are the
readings it was made of. -/
theorem assembledCommandIsTheOneWritten : Obligations.AssembledCommandIsTheOneWritten := by
  refine fun w hw => ⟨fun codes h => ?vector, fun p => ?pattern, ?trka⟩
  case vector =>
    have hrd : readings w (busOf w (vectorOfList codes)) = vectorOfList codes := readings_busOf hw (vectorOfList_lt h)
    exact ⟨⟨_, withVector_of_vectorOk h _, encode_bin, decode_encode .bin, hrd⟩,
      ⟨_, withVector_of_vectorOk h _, encode_trkv, decode_encode .trkv, hrd⟩⟩
  case pattern =>
    exact ⟨⟨_, withPattern_toNat p .lut, decode_encode (.lut p), rfl⟩,
      ⟨_, withPattern_toNat p .trkp, decode_encode (.trkp p), rfl⟩⟩
  case trka => exact ⟨_, rfl, encode_trka, decode_encode .trka, rfl⟩

end Sys2Proof.Machine
end

section
/-! The proofs of the statements on the commands (10_state.md section 4, 40_binarizer.md to 42_tracker.md): every
command is served by the one sequencer, so an edge of `exec` is an acceptance, a wait, a count, or the completion of its
family. -/

namespace Sys2Proof.Machine

section
variable {s t : State} (i : Instr)

/-! One edge of a command, by the phase it meets (R27). -/

theorem exec_of_idle (hs : s.seq = .idle) : exec i s = .next (s.acceptEdge (decide (i = .trka))) := by
  rw [exec_eq_serve, serve_idle hs]

theorem exec_of_waitAcq (hs : s.seq = .waitAcq) : exec i s = .next s.awaitEdge := by
  rw [exec_eq_serve, serve_wait hs]

theorem exec_of_completes (h : s.completes) : exec i s = .next (familyRule (.command i) s).goIdle := by
  obtain ⟨hs, hc⟩ := h
  rw [exec_eq_serve, serve_complete hs hc]

theorem exec_of_count (hs : s.seq = .exec) (hc : 1 < s.cnt) : exec i s = .next s.countEdge := by
  rw [exec_eq_serve, serve_count hs hc]

/-- The one stop of a command (log 11). -/
theorem exec_of_no_count (hs : s.seq = .exec) (hc : s.cnt = 0) : exec i s = .fault .execWithoutCount := by
  simp [exec_eq_serve, serve, hs, hc]

/-- All that an edge of a command can do. -/
theorem exec_cases (h : exec i s = .next t) :
    (s.seq = .idle ∧ t = s.acceptEdge (decide (i = .trka))) ∨ (s.seq = .waitAcq ∧ t = s.awaitEdge) ∨
      (s.completes ∧ t = (familyRule (.command i) s).goIdle) ∨ (s.seq = .exec ∧ 1 < s.cnt ∧ t = s.countEdge) := by
  rw [exec_eq_serve] at h
  simpa only [State.completes, and_assoc] using serve_cases h

end

/-! The completions. -/

/-- The whole state after a tracking completion: the resolved code stands in the latch and in the response (R140). -/
theorem State.trackPattern_goIdle (s : State) (p : Byte) :
    (s.trackPattern p).goIdle = { s with
      seq := .idle, lastPos := resolvedCode s.lastPos p, rspStatus := 0b00, rspPat := p
      rspPos := resolvedCode s.lastPos p, rspValid := true } := rfl

/-- TRKA completes as TRKV does where the answer is no error (R145). -/
theorem trkaRule_of_data {s : State} (h : s.capErr = false) : trkaRule s = s.trackPattern (binarize s.vector) := by
  simp [trkaRule, h]

theorem trkaRule_of_error {s : State} (h : s.capErr = true) : trkaRule s = s.respondError .transport := by
  simp [trkaRule, h]

/-- Settles O17: the family rule of BIN. -/
theorem binCompletes : Obligations.BinCompletes := fun _ h => exec_of_completes .bin h

/-- Settles O18: the family rule of LUT. -/
theorem lutCompletes : Obligations.LutCompletes := fun p _ h => exec_of_completes (.lut p) h

/-- Settles O19: TRKP tracks its operand. -/
theorem trkpCompletes : Obligations.TrkpCompletes := by
  rintro p s h v rfl
  exact (exec_of_completes (.trkp p) h).trans (congrArg _ (s.trackPattern_goIdle p))

/-- Settles O20: TRKV tracks the pattern of the captured vector. -/
theorem trkvCompletes : Obligations.TrkvCompletes := by
  rintro s h p v rfl rfl
  exact (exec_of_completes .trkv h).trans (congrArg _ (s.trackPattern_goIdle _))

/-- Settles O21: without an error TRKA tracks the pattern of the captured vector. -/
theorem trkaCompletesWithData : Obligations.TrkaCompletesWithData := by
  rintro s h herr p v rfl rfl
  rw [exec_of_completes .trka h, familyRule, trkaRule_of_data herr]
  exact congrArg _ (s.trackPattern_goIdle _)

/-- Settles O22: with an error TRKA only responds. -/
theorem trkaCompletesWithTransportError : Obligations.TrkaCompletesWithTransportError := by
  intro s h herr
  rw [exec_of_completes .trka h, familyRule, trkaRule_of_error herr]
  rfl

/-! The edges before the completion. -/

/-- Settles O23: the acceptance edge, of TRKA and of the other commands. -/
theorem everyCommandIsAccepted : Obligations.EveryCommandIsAccepted := by
  intro i s hs
  rw [exec_of_idle i hs]
  by_cases htrka : i = .trka
  · rw [decide_eq_true htrka, if_pos htrka]
    rfl
  · rw [decide_eq_false htrka, if_neg htrka]
    rfl

/-- An answer starts the count and is captured, its data where it is no error (R28). -/
theorem State.awaitEdge_of_answer {s : State} (h : s.pins.acqDone = true) :
    s.awaitEdge = { s with
      seq := .exec, cnt := s.params.latExec, capErr := s.pins.acqErr
      capRd := if s.pins.acqErr then s.capRd else s.pins.acqRd, rspValid := false } := by
  rw [State.awaitEdge, if_pos h]
  rfl

/-- Settles O24: an edge of TRKA in WAIT_ACQ by the answer it finds. -/
theorem trkaWaitsForTheAnswer : Obligations.TrkaWaitsForTheAnswer := by
  intro s hs
  rw [exec_of_waitAcq .trka hs]
  refine ⟨fun hd => ?_, fun hd he => ?_, fun hd he => ?_⟩
  · rw [State.awaitEdge_of_no_answer hd]
    rfl
  · simp [State.awaitEdge_of_answer hd, he]
  · simp [State.awaitEdge_of_answer hd, he]

/-- Settles O25: the count edge. -/
theorem everyCommandCounts : Obligations.EveryCommandCounts := fun i _ hs hc => exec_of_count i hs hc

/-- Settles O28: of the edges of a command only the one in EXEC with CNT = 0 has no next state. -/
theorem commandsStopOnlyWithoutCount : Obligations.CommandsStopOnlyWithoutCount := by
  refine fun i s => ⟨fun ⟨hs, hc⟩ => exec_of_no_count i hs hc, fun h => ?_⟩
  rw [exec_eq_serve]
  exact serve_next_of_count fun hs => Nat.one_le_iff_ne_zero.mpr fun hc => h ⟨hs, hc⟩

/-! The frame. -/

/-- BIN and LUT leave the latch alone (R111, R127). -/
theorem familyRule_lastPos_of_sense {i : Instr} (s : State) (h : i = .bin ∨ ∃ p, i = .lut p) :
    (familyRule (.command i) s).lastPos = s.lastPos := by
  obtain rfl | ⟨p, rfl⟩ := h
  · rfl
  · rfl

/-- Settles O26: acceptance, wait, completion and count, each with its own frame. -/
theorem commandFrame : Obligations.CommandFrame := by
  intro i s t h
  obtain ⟨hs, rfl⟩ | ⟨hs, rfl⟩ | ⟨hc, rfl⟩ | ⟨hs, -, rfl⟩ := exec_cases i h
  · simp [acceptEdge_fields, hs]
  · simp [awaitEdge_fields, hs]
  · obtain ⟨hs, hcnt⟩ := hc
    simpa [familyRule_fields, hs, hcnt] using familyRule_lastPos_of_sense s
  · simp [State.countEdge, hs]

end Sys2Proof.Machine
end

section
/-! The proofs of the statements on the step (10_state.md section 4): `step_cases` says what an edge can be, and each
register is read off the six cases once. -/

namespace Sys2Proof.Machine

/-! What a step runs, and where it stops. -/

/-- The word an edge serves, as the statement on the step names it. -/
theorem State.currentWord_of_served {s : State} {w : CmdWord}
    (h : if s.seq = .idle then s.pins.cmdValid = true ∧ w = s.pins.cmdWord else w = s.capWord) :
    s.currentWord = some w := by
  cases hs : s.seq with
  | idle =>
    obtain ⟨hv, rfl⟩ := (if_pos hs).mp h
    simp [State.currentWord, hs, hv]
  | exec => simpa [State.currentWord, hs, eq_comm] using h
  | waitAcq => simpa [State.currentWord, hs, eq_comm] using h

/-- Settles O29: the word on offer, or else the captured one, is the word the edge serves, and `exec` serves it as its
decoding says. -/
theorem stepRunsTheDecodedCommand : Obligations.StepRunsTheDecodedCommand := by
  intro s w i hr ho hw hd
  have hstep : step s = afterEdge s (exec i s) := by
    rw [step_of_word hr ho (State.currentWord_of_served hw), hd, exec_eq_serve]
    simp
  rw [hstep]
  cases exec i s with
  | next t => rfl
  | fault r => rfl
  | refused r => rfl

theorem State.standingAfter_of_no_offer {s : State} (h : s.pins.cmdValid = false) : s.standingAfter = none := by
  simp [State.standingAfter, h]

/-- Settles O30: without an offer no duty is broken, the edge only drops the strobe, and no offer stands after it. -/
theorem idleStepHoldsState : Obligations.IdleStepHoldsState := by
  intro s hr hs hv
  rw [step_of_idle hr (State.offerChanged_of_no_offer hv) hs hv, State.tickFrom, State.standingAfter_of_no_offer hv]
  rfl

theorem State.offerChanged_of_ne {s : State} {o : Offer} (h : s.standing = some o) (hv : s.pins.cmdValid = true)
    (hne : s.pins.cmdWord ≠ o.word ∨ s.pins.cmdRd ≠ o.rd) : s.offerChanged = true := by
  simpa [State.offerChanged, h, hv, imp_iff_not_or] using hne

/-- Settles O42: the offer has changed, and such an edge is refused. -/
theorem changedOfferIsRefused : Obligations.ChangedOfferIsRefused :=
  fun _ _ hstanding hr hv hne => step_of_offerChanged hr (State.offerChanged_of_ne hstanding hv hne)

/-- Settles O43: a lawful edge stops only in EXEC with CNT = 0, which the invariant rules out. -/
theorem everyLawfulEdgeHasANextState : Obligations.EveryLawfulEdgeHasANextState := by
  intro s ⟨_, _, hcount, _⟩ hlawful
  cases hr : s.pins.rst with
  | true => exact ⟨_, step_of_reset hr⟩
  | false =>
    have ho : s.offerChanged = false := hlawful.resolve_left (by simp [hr])
    cases hw : s.currentWord with
    | none => exact ⟨_, step_of_no_word hr ho hw⟩
    | some w =>
      obtain ⟨u, hu⟩ := serve_next_of_count (a := decide (decode w = .command .trka))
        (rule := familyRule (decode w)) fun hs => (hcount hs).1
      exact ⟨u.tickFrom s, by rw [step_of_word hr ho hw, hu]; rfl⟩

/-! The registers after a step. -/

/-- Settles O33: SEQ and CNT after each kind of edge. -/
theorem sequencerTransitions : Obligations.SequencerTransitions := by
  intro s t h
  obtain ⟨u, rfl, hreset | hidle | haccept | hwait | hcomplete | hcount⟩ := step_cases h
  · obtain ⟨hr, rfl⟩ := hreset
    simp [hr]
  · obtain ⟨hr, -, hs, hv, rfl⟩ := hidle
    simp [State.idleEdge, hr, hs, hv]
  · obtain ⟨hr, -, hs, hv, rfl⟩ := haccept
    by_cases htrka : decode s.pins.cmdWord = .command .trka <;> simp [acceptEdge_fields, hr, hs, hv, htrka]
  · obtain ⟨hr, -, hs, rfl⟩ := hwait
    by_cases hd : s.pins.acqDone = true <;> simp [awaitEdge_fields, hr, hs, hd]
  · obtain ⟨hr, -, hs, hc, rfl⟩ := hcomplete
    simp [hr, hs, hc]
  · obtain ⟨hr, -, hs, hc, rfl⟩ := hcount
    simp [State.countEdge, hr, hs, hc, Nat.ne_of_gt hc]

/-- Settles O34: the capture registers after each kind of edge. -/
theorem captureRegisters : Obligations.CaptureRegisters := by
  intro s t h hr
  obtain ⟨u, rfl, hreset | hidle | haccept | hwait | hcomplete | hcount⟩ := step_cases h
  · obtain ⟨hr', rfl⟩ := hreset
    simp [hr] at hr'
  · obtain ⟨-, -, hs, hv, rfl⟩ := hidle
    simp [State.idleEdge, State.accepting, State.acqReq, hs, hv]
  · obtain ⟨-, -, hs, hv, rfl⟩ := haccept
    simp [acceptEdge_fields, State.accepting, State.cmdReady, State.acqReq, hr, hs, hv]
  · obtain ⟨-, -, hs, rfl⟩ := hwait
    have hnot : s.accepting = false := State.accepting_eq_false_of_busy (State.busy_iff.mpr (by simp [hs]))
    have hreq : s.acqReq = true := State.acqReq_iff.mpr hs
    by_cases hd : s.pins.acqDone = true
    · by_cases he : s.pins.acqErr = true <;> simp [awaitEdge_fields, hnot, hreq, hd, he]
    · simp [awaitEdge_fields, hnot, hd]
  · obtain ⟨-, -, hs, hc, rfl⟩ := hcomplete
    simp [familyRule_fields, State.accepting, State.cmdReady, State.acqReq, hs]
  · obtain ⟨-, -, hs, hc, rfl⟩ := hcount
    simp [State.countEdge, State.accepting, State.cmdReady, State.acqReq, hs]

/-- Settles O35: the strobe and the response after each kind of edge. -/
theorem responseStrobe : Obligations.ResponseStrobe := by
  intro s t h hr
  obtain ⟨u, rfl, hreset | hidle | haccept | hwait | hcomplete | hcount⟩ := step_cases h
  · obtain ⟨hr', rfl⟩ := hreset
    simp [hr] at hr'
  · obtain ⟨-, -, hs, -, rfl⟩ := hidle
    simp [State.idleEdge, hs]
  · obtain ⟨-, -, hs, -, rfl⟩ := haccept
    simp [acceptEdge_fields, hs]
  · obtain ⟨-, -, hs, rfl⟩ := hwait
    simp [awaitEdge_fields, hs]
  · obtain ⟨-, -, hs, hc, rfl⟩ := hcomplete
    simp [familyRule_fields, State.completes, hs, hc]
  · obtain ⟨-, -, hs, hc, rfl⟩ := hcount
    simp [State.countEdge, Nat.ne_of_gt hc]

/-! Completions (R26, R79, R141). -/

/-- The commands that answer without the latch (R111, R127). -/
abbrev Sensing (d : Decoded) : Prop := d = .command .bin ∨ ∃ p, d = .command (.lut p)

/-- The commands that resolve a pattern into the latch (R143 to R145). -/
abbrev Tracking (d : Decoded) : Prop := d = .command .trkv ∨ d = .command .trka ∨ ∃ p, d = .command (.trkp p)

theorem lookupPattern_mem_responseCodes (p : Byte) : lookupPattern p ∈ responseCodes := by
  rw [responseCodes, List.mem_cons]
  exact lookupPattern_cases p

theorem noPosition_mem_responseCodes : noPosition ∈ responseCodes := by decide

/-- All that a completion can be: a response beside the latch, with status OK only from BIN and LUT, or the tracking of
a pattern. -/
theorem familyRule_cases (d : Decoded) (s : State) :
    (∃ st p pos, familyRule d s = s.respond st p pos ∧ pos ∈ responseCodes ∧ (st = .ok → Sensing d)) ∨
      ∃ p, familyRule d s = s.trackPattern p ∧ Tracking d := by
  cases d with
  | illegal e => exact .inl ⟨.illegal, _, _, rfl, noPosition_mem_responseCodes, nofun⟩
  | command i =>
    cases i with
    | bin => exact .inl ⟨.ok, _, _, rfl, noPosition_mem_responseCodes, fun _ => .inl rfl⟩
    | lut p => exact .inl ⟨.ok, _, _, rfl, lookupPattern_mem_responseCodes p, fun _ => .inr ⟨p, rfl⟩⟩
    | trkp p => exact .inr ⟨p, rfl, .inr (.inr ⟨p, rfl⟩)⟩
    | trkv => exact .inr ⟨_, rfl, .inl rfl⟩
    | trka =>
      cases herr : s.capErr with
      | true => exact .inl ⟨.transport, _, _, trkaRule_of_error herr, noPosition_mem_responseCodes, nofun⟩
      | false => exact .inr ⟨_, trkaRule_of_data herr, .inr (.inl rfl)⟩

/-- Settles O39: of all edges with `rst = 0` only a tracking completion can change the latch, and it responds what it
writes. -/
theorem latchWrittenOnlyByTracking : Obligations.LatchWrittenOnlyByTracking := by
  intro s t h hr hne
  obtain ⟨u, rfl, hreset | hidle | haccept | hwait | hcomplete | hcount⟩ := step_cases h
  · obtain ⟨hr', rfl⟩ := hreset
    simp [hr] at hr'
  · obtain ⟨-, -, -, -, rfl⟩ := hidle
    exact absurd rfl hne
  · obtain ⟨-, -, -, -, rfl⟩ := haccept
    simp [acceptEdge_fields] at hne
  · obtain ⟨-, -, -, rfl⟩ := hwait
    simp [awaitEdge_fields] at hne
  · obtain ⟨-, -, hs, hc, rfl⟩ := hcomplete
    rcases familyRule_cases (decode s.capWord) s with ⟨st, p, pos, hrule, -⟩ | ⟨p, hrule, htracking⟩
    · simp [hrule] at hne
    · rw [hrule]
      exact ⟨⟨hs, hc⟩, htracking, rfl, rfl, rfl⟩
  · obtain ⟨-, -, -, -, rfl⟩ := hcount
    exact absurd rfl hne

/-- The next state of a completion edge, if it has one. -/
theorem eq_of_step_completes {s t : State} (hr : s.pins.rst = false) (hc : s.completes) (h : step s = .next t) :
    t = (familyRule (decode s.capWord) s).goIdle.tickFrom s := by
  obtain ⟨hs, hcnt⟩ := hc
  cases ho : s.offerChanged with
  | true => cases (step_of_offerChanged hr ho).symm.trans h
  | false => cases (step_of_complete hr ho hs hcnt).symm.trans h; rfl

theorem statusCode_eq_ok {st : Status} (h : statusCode st = 0b00) : st = .ok := by
  cases st with
  | ok => rfl
  | illegal => cases h
  | transport => cases h

/-- Settles O41: a completion that tracks responds a code that is not UNDEF, and of the others only BIN and LUT
respond OK. -/
theorem okWithoutPositionIsBinOrLut : Obligations.OkWithoutPositionIsBinOrLut := by
  intro s t hlast hr hc h hok hpos
  obtain rfl := eq_of_step_completes hr hc h
  rcases familyRule_cases (decode s.capWord) s with ⟨st, p, pos, hrule, -, hsensing⟩ | ⟨p, hrule, -⟩
  · rw [hrule] at hok
    exact hsensing (statusCode_eq_ok hok)
  · rw [hrule] at hpos
    exact absurd hpos (resolvedCode_ne_undef p hlast)

end Sys2Proof.Machine
end

section
/-! The invariant (R24, R27, R76, R78, R210): it holds at reset and each kind of edge keeps it. What the agents drive is
no part of it, so it is the edge's to keep. -/

namespace Sys2Proof.Machine

theorem Params.one_le_latExec {c : Params} (h : c.wf = true) : 1 ≤ c.latExec := by
  obtain ⟨-, hlat⟩ := Bool.and_eq_true_iff.mp h
  exact of_decide_eq_true hlat

/-- Status 0b11 is never produced (R78). -/
theorem statusCode_ne_three (st : Status) : statusCode st ≠ 0b11 := by
  cases st with
  | ok => decide
  | illegal => decide
  | transport => decide

/-- The ports carry buses of `8 * W` bits (R33). -/
theorem State.busOk_cmdRd (s : State) : WellFormed.busOk s.params.width s.pins.cmdRd = true := busOk_busClip _ _

theorem State.busOk_acqRd (s : State) : WellFormed.busOk s.params.width s.pins.acqRd = true := busOk_busClip _ _

/-- Settles O46: the parameters at their defaults, the registers at their reset values. -/
theorem resetStateHasInvariant : Obligations.ResetStateHasInvariant := by
  have hwf : State.reset.params.wf = true :=
    Bool.and_eq_true_iff.mpr ⟨by decide, decide_eq_true (Nat.le_add_left 1 _)⟩
  exact ⟨hwf, zero_mem_latchCodes, nofun, nofun, by decide, by decide, noPosition_mem_responseCodes, nofun⟩

section
variable {s : State} (h : s.Inv)
include h

theorem State.Inv.resetEdge : s.resetEdge.Inv := by
  obtain ⟨hwf, -⟩ := h
  exact ⟨hwf, zero_mem_latchCodes, nofun, nofun, busOk_busClip _ _, statusCode_ne_three .ok,
    noPosition_mem_responseCodes, nofun⟩

theorem State.Inv.dropStrobe : s.dropStrobe.Inv := by
  obtain ⟨hwf, hlast, hcount, hwait, hbus, hstatus, hpos, -⟩ := h
  exact ⟨hwf, hlast, hcount, hwait, hbus, hstatus, hpos, nofun⟩

/-- The count starts in range. -/
theorem State.Inv.startExec (hvalid : s.rspValid = false) : s.startExec.Inv := by
  obtain ⟨hwf, hlast, -, -, hbus, hstatus, hpos, -⟩ := h
  exact ⟨hwf, hlast, fun _ => ⟨Params.one_le_latExec hwf, le_rfl⟩, nofun, hbus, hstatus, hpos,
    fun ht => by simp [hvalid] at ht⟩

/-- Only TRKA is accepted into WAIT_ACQ. -/
theorem State.Inv.acceptEdge (hs : s.seq = .idle) :
    (s.acceptEdge (decide (decode s.pins.cmdWord = .command .trka))).Inv := by
  obtain ⟨hwf, hlast, -, -, -, hstatus, hpos, -⟩ := h
  have hcaptured : s.captureCommand.dropStrobe.Inv :=
    ⟨hwf, hlast, by simp [State.countInv, hs], by simp [State.waitInv, hs], s.busOk_cmdRd, hstatus, hpos, nofun⟩
  by_cases htrka : decode s.pins.cmdWord = .command .trka
  · obtain ⟨-, -, -, -, hbus, -⟩ := hcaptured
    rw [decide_eq_true htrka]
    exact ⟨hwf, hlast, nofun, fun _ => htrka, hbus, hstatus, hpos, nofun⟩
  · rw [decide_eq_false htrka]
    exact hcaptured.startExec rfl

theorem State.Inv.awaitEdge (hs : s.seq = .waitAcq) : s.awaitEdge.Inv := by
  cases hd : s.pins.acqDone with
  | false =>
    rw [State.awaitEdge_of_no_answer hd]
    exact h.dropStrobe
  | true =>
    obtain ⟨hwf, hlast, -, hwait, hbus, hstatus, hpos, -⟩ := h
    have hcaptured : s.captureAnswer.dropStrobe.Inv := by
      refine ⟨hwf, hlast, by simp [State.countInv, hs], hwait, ?_, hstatus, hpos, nofun⟩
      cases he : s.pins.acqErr with
      | true => simpa [he] using hbus
      | false => simpa [he] using s.busOk_acqRd
    rw [State.awaitEdge, if_pos hd]
    exact hcaptured.startExec rfl

theorem State.Inv.complete (d : Decoded) : (familyRule d s).goIdle.Inv := by
  obtain ⟨hwf, hlast, -, -, hbus, -, -, -⟩ := h
  rcases familyRule_cases d s with ⟨st, p, pos, hrule, hpos, -⟩ | ⟨p, hrule, -⟩
  · rw [hrule]
    exact ⟨hwf, hlast, nofun, nofun, hbus, statusCode_ne_three st, hpos, fun _ => rfl⟩
  · have hmem := resolvedCode_mem_latchCodes p hlast
    rw [hrule]
    exact ⟨hwf, hmem, nofun, nofun, hbus, statusCode_ne_three .ok, List.mem_cons_of_mem _ hmem, fun _ => rfl⟩

theorem State.Inv.countEdge (hs : s.seq = .exec) (hc : 1 < s.cnt) : s.countEdge.Inv := by
  obtain ⟨hwf, hlast, hcount, hwait, hbus, hstatus, hpos, -⟩ := h
  obtain ⟨-, hle⟩ := hcount hs
  exact ⟨hwf, hlast, fun _ => ⟨Nat.le_sub_one_of_lt hc, (Nat.sub_le _ _).trans hle⟩, hwait, hbus, hstatus, hpos, nofun⟩

end

/-- Settles O47: every kind of edge keeps the invariant. -/
theorem stepKeepsInvariant : Obligations.StepKeepsInvariant := by
  intro s t hs h
  obtain ⟨u, rfl, hreset | hidle | haccept | hwait | hcomplete | hcount⟩ := step_cases h
  · obtain ⟨-, rfl⟩ := hreset
    exact hs.resetEdge
  · obtain ⟨-, -, -, -, rfl⟩ := hidle
    exact hs.dropStrobe
  · obtain ⟨-, -, hidle, -, rfl⟩ := haccept
    exact hs.acceptEdge hidle
  · obtain ⟨-, -, hwaiting, rfl⟩ := hwait
    exact hs.awaitEdge hwaiting
  · obtain ⟨-, -, -, -, rfl⟩ := hcomplete
    exact hs.complete _
  · obtain ⟨-, -, hexec, hc, rfl⟩ := hcount
    exact hs.countEdge hexec hc

end Sys2Proof.Machine
end

section
/-! The refinement of the command-level view (R39), one edge at a time: an edge without an event leaves the view and
shows no response, and every other edge is one event of the view. -/

namespace Sys2Proof.Machine

/-! The view of a state by its phase (R39). -/

theorem State.view_of_idle {s : State} (h : s.seq = .idle) : s.view = { lastPos := s.lastPos, phase := .idle } := by
  simp [State.view, State.viewPhase, h]

theorem State.view_of_waitAcq {s : State} (h : s.seq = .waitAcq) :
    s.view = { lastPos := s.lastPos, phase := .waitAcq } := by
  simp [State.view, State.viewPhase, h]

theorem State.view_of_exec_trka {s : State} (h : s.seq = .exec) (hw : decode s.capWord = .command .trka) :
    s.view = { lastPos := s.lastPos, phase := .waitAcq } := by
  simp [State.view, State.viewPhase, State.capturedTrka, h, hw]

/-- A word that asks for no acquisition is not seen until it completes (log 18). -/
theorem State.view_of_exec_ne_trka {s : State} (h : s.seq = .exec) (hw : decode s.capWord ≠ .command .trka) :
    s.view = { lastPos := s.lastPos, phase := .idle } := by
  simp [State.view, State.viewPhase, State.capturedTrka, h, hw]

/-! One event. -/

/-- A completion of the LC. -/
def State.completed (s : State) : State := (familyRule (decode s.capWord) s).goIdle.tickFrom s

theorem View.step_answer {w : Nat} {v : View} (a : Answer) (h : v.phase = .waitAcq) :
    v.step w (.answer a) = some (v.answer w a) := if_pos h

theorem View.step_accept {w : Nat} {v : View} (word : CmdWord) (rd : Bus) (h : v.phase = .idle) :
    v.step w (.accept word rd) = some (v.accept w word rd) := if_pos h

/-- The completion of a TRKA is the answer its registers hold (R145, R146). -/
theorem completed_of_trka {s : State} {v : View} (hv : v = { lastPos := s.lastPos, phase := .waitAcq })
    (hw : decode s.capWord = .command .trka) :
    v.answer s.params.width s.capturedAnswer = (s.completed.view, s.completed.response) := by
  subst hv
  rw [State.completed, hw, familyRule, State.capturedAnswer]
  cases herr : s.capErr with
  | true =>
    rw [trkaRule_of_error herr]
    rfl
  | false =>
    rw [trkaRule_of_data herr]
    rfl

/-- The completion of every other word is its acceptance at the command level (R39). -/
theorem completed_of_ne_trka {s : State} {v : View} (hv : v = { lastPos := s.lastPos, phase := .idle })
    (hw : decode s.capWord ≠ .command .trka) :
    v.accept s.params.width s.capWord s.capRd = (s.completed.view, s.completed.response) := by
  subst hv
  cases hd : decode s.capWord with
  | illegal e => simp only [View.accept, State.completed, hd]; rfl
  | command i =>
    cases i with
    | bin => simp only [View.accept, State.completed, hd]; rfl
    | lut p => simp only [View.accept, State.completed, hd]; rfl
    | trkp p => simp only [View.accept, State.completed, hd]; rfl
    | trkv => simp only [View.accept, State.completed, hd]; rfl
    | trka => exact absurd hd hw

/-- A completion edge is one step of the view, on its event. -/
theorem view_step_of_completes {s : State} (hs : s.seq = .exec) :
    s.view.step s.params.width s.completionEvent = some (s.completed.view, s.completed.response) := by
  by_cases hw : decode s.capWord = .command .trka
  · rw [State.completionEvent_of_trka hw, View.step_answer _ (by rw [State.view_of_exec_trka hs hw]),
      completed_of_trka (State.view_of_exec_trka hs hw) hw]
  · rw [State.completionEvent_of_ne_trka hw, View.step_accept _ _ (by rw [State.view_of_exec_ne_trka hs hw]),
      completed_of_ne_trka (State.view_of_exec_ne_trka hs hw) hw]

/-! One edge. -/

theorem View.run_nil (w : Nat) (v : View) : v.run w [] = some (v, []) := rfl

theorem View.run_singleton {w : Nat} {v v' : View} {e : Event} {r : Option Response} (h : v.step w e = some (v', r)) :
    v.run w [e] = some (v', r.toList) := by
  simp [View.run, h]

/-- A run on two sequences of events, one after the other. -/
theorem View.run_append {w : Nat} {u v v' : View} {es fs : List Event} {rs rs' : List Response}
    (hes : u.run w es = some (v, rs)) (hfs : v.run w fs = some (v', rs')) :
    u.run w (es ++ fs) = some (v', rs ++ rs') := by
  induction es generalizing u rs with
  | nil =>
    cases hes
    exact hfs
  | cons e es ih =>
    unfold View.run at hes
    split at hes
    · cases hes
    · next u' r hstep =>
      split at hes
      · cases hes
      · next v'' rs'' hrest =>
        cases hes
        simp [View.run, hstep, ih hrest]

/-- An edge whose event is a step of the view is a run of the view. -/
theorem view_run_of_event {w : Nat} {s t : State} {e : Event} (he : s.nextEvent = some e)
    (h : s.view.step w e = some (t.view, t.response)) :
    s.view.run w s.nextEvent.toList = some (t.view, t.response.toList) := by
  rw [he]
  exact View.run_singleton h

/-- An edge that shows nothing is the empty run. -/
theorem view_run_of_no_event {w : Nat} {s t : State} (he : s.nextEvent = none) (hv : t.view = s.view)
    (hr : t.rspValid = false) : s.view.run w s.nextEvent.toList = some (t.view, t.response.toList) := by
  rw [he, hv, State.response_of_strobe_low hr]
  exact View.run_nil w s.view

/-- A TRKA that waits and a TRKA whose answer has come are one phase of the view (R39). -/
theorem State.awaitEdge_view {s : State} (hs : s.seq = .waitAcq) (hw : decode s.capWord = .command .trka) :
    (s.awaitEdge.tickFrom s).view = s.view := by
  have hfields := awaitEdge_fields s
  cases hd : s.pins.acqDone with
  | true =>
    rw [State.view_of_waitAcq hs, State.view_of_exec_trka (by simp [hfields, hd]) (by simp [hfields, hw])]
    simp [hfields]
  | false =>
    rw [State.view_of_waitAcq hs, State.view_of_waitAcq (by simp [hfields, hd, hs])]
    simp [hfields]

/-- The acceptance of a word that asks for no acquisition shows nothing yet (log 18). -/
theorem State.accepted_view_of_ne_trka {s : State} (hs : s.seq = .idle)
    (hw : decode s.pins.cmdWord ≠ .command .trka) : s.accepted.view = s.view := by
  rw [State.view_of_idle hs, State.view_of_exec_ne_trka (by simp [State.accepted_fields, hw])
    (by simpa [State.accepted_fields] using hw)]
  simp [State.accepted_fields]

/-- The acceptance of a TRKA starts the wait (R39). -/
theorem State.accepted_view_of_trka {s : State} (hs : s.seq = .idle) (hw : decode s.pins.cmdWord = .command .trka) :
    s.view.step s.params.width (.accept s.pins.cmdWord s.pins.cmdRd) = some (s.accepted.view, s.accepted.response) := by
  rw [State.view_of_idle hs, View.step_accept _ _ rfl, State.view_of_waitAcq (by simp [State.accepted_fields, hw]),
    State.response_of_strobe_low (by simp [State.accepted_fields])]
  simp [View.accept, hw, State.accepted_fields]

/-- One edge of the LC is a run of the view, on the event the edge shows, with the response it shows. -/
theorem view_run_of_step {s t : State} (hwait : s.waitInv) (h : step s = .next t) :
    s.view.run s.params.width s.nextEvent.toList = some (t.view, t.response.toList) := by
  obtain ⟨u, rfl, hreset | hidle | haccept | hwaiting | hcomplete | hcount⟩ := step_cases h
  · obtain ⟨hr, rfl⟩ := hreset
    exact view_run_of_event (e := .reset) (by simp [State.nextEvent, hr]) rfl
  · obtain ⟨hr, -, hs, hv, rfl⟩ := hidle
    exact view_run_of_no_event (by simp [State.nextEvent, hr, hs, hv]) rfl rfl
  · obtain ⟨hr, -, hs, hv, rfl⟩ := haccept
    by_cases hw : decode s.pins.cmdWord = .command .trka
    · exact view_run_of_event (by simp [State.nextEvent, hr, hs, hv, hw]) (State.accepted_view_of_trka hs hw)
    · exact view_run_of_no_event (by simp [State.nextEvent, hr, hs, hw]) (State.accepted_view_of_ne_trka hs hw)
        (by simp [acceptEdge_fields])
  · obtain ⟨hr, -, hs, rfl⟩ := hwaiting
    exact view_run_of_no_event (by simp [State.nextEvent, hr, hs]) (State.awaitEdge_view hs (hwait hs))
      (by simp [awaitEdge_fields])
  · obtain ⟨hr, -, hs, hc, rfl⟩ := hcomplete
    exact view_run_of_event (State.nextEvent_of_completes hr hs hc) (view_step_of_completes hs)
  · obtain ⟨hr, -, hs, hc, rfl⟩ := hcount
    exact view_run_of_no_event (by simp [State.nextEvent, hr, hs, Nat.ne_of_gt hc]) rfl rfl

/-- Settles O49: the runs of the view for the single edges, joined. -/
theorem clockedRunRefinesCommandView : Obligations.ClockedRunRefinesCommandView := by
  intro k
  induction k with
  | zero =>
    intro s t es rs _ h
    obtain ⟨rfl, rfl, rfl⟩ := observe_zero h
    exact View.run_nil _ _
  | succ k ih =>
    intro s t es rs hs h
    obtain ⟨u, es', rs', hstep, hrest, rfl, rfl⟩ := observe_succ h
    have hu : u.Inv := stepKeepsInvariant s u hs hstep
    obtain ⟨-, -, -, hwait, -⟩ := hs
    exact View.run_append (view_run_of_step hwait hstep) (step_params hstep ▸ ih u t es' rs' hu hrest)

end Sys2Proof.Machine
end

section
/-! The proofs of the statements on what the ports do not show (R22, R28, R74), from the agreement of alike states. -/

namespace Sys2Proof.Machine

/-- Settles O52: in IDLE no command is in flight that could read the unspecified registers, so the states are alike. -/
theorem unspecifiedRegistersAreUnobservable : Obligations.UnspecifiedRegistersAreUnobservable :=
  fun k _ _ hs h => (State.Alike.of_idle h hs).outputsAfter_eq k

theorem State.withOfferedBus_cmdWord (s : State) (rd : Bus) : (s.withOfferedBus rd).pins.cmdWord = s.pins.cmdWord := rfl

/-- Settles O54: the two offers carry one word, and only BIN and TRKV read the bus beside it. -/
theorem ignoredReadingBusIsUnobservable : Obligations.IgnoredReadingBusIsUnobservable := by
  intro k s rd h hstanding hbin htrkv
  have hreads : decode s.pins.cmdWord = .command .bin ∨ decode s.pins.cmdWord = .command .trkv →
      s.pins.cmdRd = (s.withOfferedBus rd).pins.cmdRd := fun hd => absurd hd (not_or.mpr ⟨hbin, htrkv⟩)
  exact (outputsAfter_eq_of_accepting (t := s.withOfferedBus rd) rfl h h
    (congrArg decode (s.withOfferedBus_cmdWord rd).symm) hstanding hreads k).symm

end Sys2Proof.Machine
end

section
/-! The proofs of the statements on latency (R210): from EXEC with CNT = n the LC counts for n - 1 edges and completes
at the n-th, so a command completes at the LAT_EXEC-th edge after the one that starts its count. -/

namespace Sys2Proof.Machine

/-- In EXEC, the strobe low and no offer standing: what a count edge keeps while the host is quiet. -/
structure State.Counting (s : State) : Prop where
  seq : s.seq = .exec
  strobe : s.rspValid = false
  standing : s.standing = none

/-- The state `j` count edges later, while the host is quiet. -/
def State.counted (s : State) (j : Nat) : State := { s with cnt := s.cnt - j, inputs := s.inputs.drop j }

theorem State.counted_one_counted (s : State) (j : Nat) : (s.counted 1).counted j = s.counted (j + 1) := by
  simp [State.counted, Nat.sub_sub, Nat.add_comm]

theorem State.Counting.counted {s : State} (h : s.Counting) (j : Nat) : (s.counted j).Counting :=
  ⟨h.seq, h.strobe, h.standing⟩

/-- The host is quiet in the next cycle and in the `k` after it. -/
theorem hostQuiet_succ {k : Nat} {s : State} (h : hostQuiet (k + 1) s.inputs) :
    s.pins.rst = false ∧ s.pins.cmdValid = false ∧ hostQuiet k s.inputs.tail := by
  obtain ⟨⟨hr, hv⟩, hrest⟩ := headD_and_forall_take_tail ⟨rfl, rfl⟩ h
  exact ⟨hr, hv, hrest⟩

theorem hostQuiet_mono {j k : Nat} {cycles : List Pins} (hjk : j ≤ k) (h : hostQuiet k cycles) : hostQuiet j cycles :=
  fun q hq => h q (List.take_subset_take_left cycles hjk hq)

section
variable {s : State} (h : s.Counting)
include h

/-- A count edge of a quiet host. -/
theorem step_of_counting (hr : s.pins.rst = false) (hv : s.pins.cmdValid = false) (hc : 1 < s.cnt) :
    step s = .next (s.counted 1) := by
  have hcounted : s.countEdge.tickFrom s = s.counted 1 := by
    simp [State.countEdge, State.setCount, State.dropStrobe, State.tickFrom, State.counted, h.strobe, h.standing,
      State.standingAfter_of_no_offer hv]
  rw [step_of_count hr (State.offerChanged_of_standing_none h.standing) h.seq hc, hcounted]

theorem step_of_counted_out (hr : s.pins.rst = false) (hc : s.cnt = 1) : step s = .next s.completed :=
  step_of_complete hr (State.offerChanged_of_standing_none h.standing) h.seq hc

/-- Before the count runs out, the edges only count. -/
theorem reaches_counted {j : Nat} (hj : j < s.cnt) (hquiet : hostQuiet j s.inputs) : reaches j s (s.counted j) := by
  induction j generalizing s with
  | zero => exact reaches_zero.mpr rfl
  | succ j ih =>
    obtain ⟨hr, hv, hrest⟩ := hostQuiet_succ hquiet
    have hnext := ih (h.counted 1) (Nat.lt_sub_of_add_lt hj) (by simpa [State.counted] using hrest)
    rw [State.counted_one_counted] at hnext
    exact reaches_succ.mpr ⟨_, step_of_counting h hr hv (by omega), hnext⟩

/-- The edge at which the count runs out completes the command. -/
theorem reaches_completed {n : Nat} (hn : s.cnt = n + 1) (hquiet : hostQuiet (n + 1) s.inputs) :
    reaches (n + 1) s (s.counted n).completed := by
  induction n generalizing s with
  | zero =>
    obtain ⟨hr, -, -⟩ := hostQuiet_succ hquiet
    exact reaches_succ.mpr ⟨_, step_of_counted_out h hr hn, reaches_zero.mpr rfl⟩
  | succ n ih =>
    obtain ⟨hr, hv, hrest⟩ := hostQuiet_succ hquiet
    have hnext := ih (h.counted 1) (by simp [State.counted, hn]) (by simpa [State.counted] using hrest)
    rw [State.counted_one_counted] at hnext
    exact reaches_succ.mpr ⟨_, step_of_counting h hr hv (by omega), hnext⟩

end

/-- An edge that starts the count leads, `n` edges later and no sooner, to a completion, which the command-level view
sees as one step. -/
theorem completes_after_count {s u : State} {n : Nat} (hstep : step s = .next u) (hu : u.Counting) (hn : u.cnt = n)
    (hpos : 1 ≤ n) (hlast : u.lastPos = s.lastPos) (hquiet : hostQuiet n u.inputs) :
    (∃ t, reaches (n + 1) s t ∧ t.busy = false ∧
      u.view.step u.params.width u.completionEvent = some (t.view, t.response)) ∧
    ∀ j, 1 ≤ j → j ≤ n → ∃ v, reaches j s v ∧ v.busy = true ∧ v.response = none ∧ v.lastPos = s.lastPos := by
  constructor
  · obtain ⟨m, rfl⟩ := Nat.exists_eq_add_of_le' hpos
    exact ⟨_, reaches_succ.mpr ⟨u, hstep, reaches_completed hu hn hquiet⟩, rfl,
      view_step_of_completes (s := u.counted m) hu.seq⟩
  · intro j hj hjn
    obtain ⟨i, rfl⟩ := Nat.exists_eq_add_of_le' hj
    have hrun := reaches_counted hu (hn ▸ hjn) (hostQuiet_mono (by omega) hquiet)
    exact ⟨u.counted i, reaches_succ.mpr ⟨u, hstep, hrun⟩, State.busy_iff.mpr (by simp [(hu.counted i).seq]),
      State.response_of_strobe_low hu.strobe, hlast⟩

/-- Settles O55: the acceptance starts the count, and the completion is the acceptance of the command-level view. -/
theorem commandCompletesAfterLatency : Obligations.CommandCompletesAfterLatency := by
  intro s ⟨hwf, _⟩ ha hstanding hw hquiet
  obtain ⟨-, hs, -⟩ := State.accepting_iff.mp ha
  have hfields := s.accepted_fields
  have hcounting : s.accepted.Counting :=
    ⟨by simp [hfields, hw], by simp [hfields], State.accepted_standing ha⟩
  obtain ⟨⟨t, hrun, hidle, hview⟩, hbefore⟩ := completes_after_count (step_of_accepting ha hstanding) hcounting
    (n := s.params.latExec) (by simp [hfields, hw]) (Params.one_le_latExec hwf) (by simp [hfields])
    (by simpa [hfields] using hquiet)
  refine ⟨⟨t, hrun, hidle, ?_⟩, hbefore⟩
  rw [State.completionEvent_of_ne_trka (by simpa [hfields] using hw), State.accepted_view_of_ne_trka hs hw,
    View.step_accept _ _ (by rw [State.view_of_idle hs])] at hview
  simpa [hfields] using (Option.some.inj hview).symm

/-- The answer that an edge in WAIT_ACQ captures is the one on the ports (R28). -/
theorem State.awaitEdge_capturedAnswer {s : State} (hd : s.pins.acqDone = true) :
    (s.awaitEdge.tickFrom s).capturedAnswer =
      if s.pins.acqErr = true then .transportError else .data s.pins.acqRd := by
  by_cases he : s.pins.acqErr = true <;> simp [State.capturedAnswer, awaitEdge_fields, hd, he]

/-- Settles O56: the answer starts the count, and the completion is the answer of the command-level view. -/
theorem trkaCompletesAfterAnswer : Obligations.TrkaCompletesAfterAnswer := by
  intro s ⟨hwf, _, _, hwait, _⟩ hs hd hquiet
  obtain ⟨hr, hv, hrest⟩ := hostQuiet_succ hquiet
  have hw : decode s.capWord = .command .trka := hwait hs
  have hfields := awaitEdge_fields s
  have hcounting : (s.awaitEdge.tickFrom s).Counting :=
    ⟨by simp [hfields, hd], by simp [hfields], State.standingAfter_of_no_offer hv⟩
  obtain ⟨⟨t, hrun, hidle, hview⟩, hbefore⟩ := completes_after_count
    (step_of_waitAcq hr (State.offerChanged_of_no_offer hv) hs) hcounting (n := s.params.latExec)
    (by simp [hfields, hd]) (Params.one_le_latExec hwf) (by simp [hfields]) hrest
  refine ⟨⟨t, hrun, hidle, ?_⟩, hbefore⟩
  rw [State.completionEvent_of_trka (by simpa [hfields] using hw), State.awaitEdge_view hs hw,
    State.awaitEdge_capturedAnswer hd, View.step_answer _ (by rw [State.view_of_waitAcq hs])] at hview
  simpa [hfields] using (Option.some.inj hview).symm

end Sys2Proof.Machine
end

section
/-! The proofs of the statements on reset (R85, R200 to R202): a reset edge puts the specified registers at their reset
values, and there they stay until the host offers a command. -/

namespace Sys2Proof.Machine

/-- The specified registers at their reset values (R201), and no offer standing (log 13). -/
structure State.AtReset (s : State) : Prop where
  lastPos : s.lastPos = 0x00
  seq : s.seq = .idle
  rspStatus : s.rspStatus = 0b00
  rspPat : s.rspPat = 0x00
  rspPos : s.rspPos = 0x80
  rspValid : s.rspValid = false
  standing : s.standing = none

theorem State.standingAfter_of_reset {s : State} (h : s.pins.rst = true) : s.standingAfter = none := by
  simp [State.standingAfter, h]

theorem atReset_of_reset {s : State} (h : s.pins.rst = true) : (s.resetEdge.tickFrom s).AtReset :=
  ⟨rfl, rfl, rfl, rfl, rfl, rfl, State.standingAfter_of_reset h⟩

/-- Without a command on offer the LC stays as the reset left it: whatever the adapter drives, it is in no wait. -/
theorem State.AtReset.step {s t : State} (h : s.AtReset) (hv : s.pins.cmdValid = false) (hstep : step s = .next t) :
    t.AtReset := by
  obtain ⟨u, rfl, hreset | hidle | haccept | hwait | hcomplete | hcount⟩ := step_cases hstep
  · obtain ⟨hr, rfl⟩ := hreset
    exact atReset_of_reset hr
  · obtain ⟨-, -, -, -, rfl⟩ := hidle
    exact ⟨h.lastPos, h.seq, h.rspStatus, h.rspPat, h.rspPos, rfl, State.standingAfter_of_no_offer hv⟩
  · obtain ⟨-, -, -, hv', -⟩ := haccept
    cases hv.symm.trans hv'
  · obtain ⟨-, -, hs, -⟩ := hwait
    cases h.seq.symm.trans hs
  · obtain ⟨-, -, hs, -⟩ := hcomplete
    cases h.seq.symm.trans hs
  · obtain ⟨-, -, hs, -⟩ := hcount
    cases h.seq.symm.trans hs

/-- A step takes one cycle off the list. -/
theorem step_inputs {s t : State} (h : step s = .next t) : t.inputs = s.inputs.tail := by
  obtain ⟨u, -, rfl⟩ := step_next h
  rfl

theorem State.AtReset.reaches {k : Nat} {s t : State} (h : s.AtReset)
    (hcycles : ∀ q ∈ s.inputs.take k, q.cmdValid = false) (hrun : reaches k s t) : t.AtReset := by
  induction k generalizing s with
  | zero =>
    obtain rfl := reaches_zero.mp hrun
    exact h
  | succ k ih =>
    obtain ⟨u, hstep, hrest⟩ := reaches_succ.mp hrun
    obtain ⟨hv, hlater⟩ := headD_and_forall_take_tail (P := fun q => q.cmdValid = false) rfl hcycles
    exact ih (h.step hv hstep) (step_inputs hstep ▸ hlater) hrest

/-- Settles O45: the reset values last while no command is offered. -/
theorem resetAbandonsTheCommand : Obligations.ResetAbandonsTheCommand := by
  intro k s t hr hcycles hrun
  have ht : t.AtReset := (atReset_of_reset hr).reaches hcycles ((reaches_succ_of_reset hr).mp hrun)
  exact ⟨ht.rspValid, ht.seq, State.acqReq_eq_false_iff.mpr (by simp [ht.seq]), ht.lastPos⟩

/-- The run through one cycle and more of `rst = 1` ends at reset, the other cycles still to come. -/
theorem exists_reaches_of_reset_cycles {s : State} {p : Pins} {ps rest : List Pins}
    (hcycles : ∀ q ∈ p :: ps, q.rst = true) (hin : s.inputs = p :: ps ++ rest) :
    ∃ t, reaches (ps.length + 1) s t ∧ t.inputs = rest ∧ t.params = s.params ∧ t.AtReset := by
  induction ps generalizing s p with
  | nil =>
    obtain ⟨hp, -⟩ := List.forall_mem_cons.mp hcycles
    have hr : s.pins.rst = true := by simpa [State.pins_cons hin] using hp
    exact ⟨_, (reaches_succ_of_reset hr).mpr (reaches_zero.mpr rfl), by simp [hin], rfl, atReset_of_reset hr⟩
  | cons q qs ih =>
    obtain ⟨hp, hlater⟩ := List.forall_mem_cons.mp hcycles
    have hr : s.pins.rst = true := by simpa [State.pins_cons hin] using hp
    obtain ⟨t, hrun, ht, hparams, hreset⟩ := ih (s := s.resetEdge.tickFrom s) hlater (by simp [hin])
    exact ⟨t, (reaches_succ_of_reset hr).mpr hrun, ht, hparams, hreset⟩

/-- Settles O59: the cycles of the line are `hold + 1` times `rst = 1`, and a run through them ends at reset. -/
theorem resetLineGivesTheStartState : Obligations.ResetLineGivesTheStartState := by
  intro w hold s cs rest hcs hin
  obtain rfl : HostMove.assertReset.cycles hold = cs := Option.some.inj hcs
  have hcycles : ∀ q ∈ HostMove.assertReset.cycles hold, q.rst = true ∧ q.cmdValid = false := by
    intro q hq
    rw [HostMove.eq_pins_of_mem_cycles hq]
    exact ⟨rfl, rfl⟩
  have hlen := HostMove.cycles_length hold .assertReset
  obtain ⟨t, hrun, ht, hparams, h⟩ := exists_reaches_of_reset_cycles (p := HostMove.assertReset.pins)
    (ps := List.replicate hold HostMove.assertReset.pins) (fun q hq => (hcycles q hq).1) hin
  refine ⟨by omega, hlen, hcycles, t, ?_, ht, h.standing, hparams, h.lastPos, h.seq, h.rspStatus, h.rspPat, h.rspPos,
    h.rspValid⟩
  simpa [hlen] using hrun

end Sys2Proof.Machine
end
